-- ==== Sys2Proof/Word.lean ====
section
/-! DEFINITION. The plain types of the XB-18's values: bytes, samples, ring counts, and the numbers that name ports,
patches, lanes, banks and report sources. -/

namespace Sys2Proof

/-- One byte of the management channel or of a highway timeslot (R156, R172). -/
abbrev Byte := BitVec 8

/-- An audio sample: a signed integer from -32768 to 32767, two's complement (00_scope.md, R174). -/
abbrev Sample := BitVec 16

/-- A ring head or cursor: a count from 0 to 65535 that wraps (R60). -/
abbrev Count := BitVec 16

/-- A port number, 0 to 17: 0 to 15 are RP0 to RP15, 16 and 17 are C0 and C1 (R21). -/
abbrev Port := Fin 18

/-- A patch position, P0 to P7 (R2). -/
abbrev Patch := Fin 8

/-- A lane of a patch record, 0 to 7 (R2). -/
abbrev Lane := Fin 8

/-- A bank number, 0 or 1 (R1). -/
abbrev Bank := Fin 2

/-- A report source: 0 to 17 the ports, 18 to 25 the patches, 26 the system (R142). -/
abbrev Source := Fin 27

/-- A gain, 0 to 255, in which 64 is unity (00_scope.md). -/
abbrev Gain := BitVec 8

end Sys2Proof
end

