-- ==== Sys2Proof/Syntax.lean ====
section
/-! DEFINITION. The commands of the block: one constructor per row of spec/opcode_table.json, with its operands. -/

namespace Sys2Proof

/-- One item of the work the part does when a frame arrives, as FRAME_ARRIVAL lists them. The spec lets the items of
one frame be taken in more than one order (R47, R62, R114, R123, R147, R154, R167); the list in FRAME_ARRIVAL says in
which order this frame's items are taken (log entry 2). An item that is not due does nothing. -/
inductive FrameTask where
  /-- The ring work of the DRU: readers are served, then each active writer's sample is appended (R63). -/
  | ring
  /-- The parser takes the next inbound management byte of the frame (R158). -/
  | byte
  /-- The ORU carries out the order it holds (R163). -/
  | order
  /-- The MCI fills the next outbound byte place of the following frame (R167, R173). -/
  | lane
  /-- The settlement of a port's COR is taken (R29). -/
  | cor (p : Port)
  /-- The settlement of a port's EMG is taken (R37). -/
  | emg (p : Port)
  /-- A talk-time expiry is taken (R32). -/
  | talkTime (p : Port)
  /-- A key-up expiry is taken (R68). -/
  | keyUp (p : Port)
  /-- A hang expiry is taken (R72). -/
  | hang (p : Port)
  /-- A key-confirm expiry is taken (R75). -/
  | keyConfirm (p : Port)
  /-- An alert timer's expiry is taken (R114). -/
  | alert (q : Patch)
  /-- The grace timer's expiry is taken (R123). -/
  | grace
  /-- The grace timer's expiry, if it is due, goes before the idle test of the item that makes the last involved patch
  idle (R123; log entry 38). -/
  | graceFirst
deriving DecidableEq, Repr

/-- The commands, one per row of spec/opcode_table.json. An order's `body` is the body of its message (R157, R177);
`keysw` is the level of the KEYSW line at that moment, `true` for asserted (R134). -/
inductive Instr where
  /-- POWER_ON_RESET (R175). `rstHeld`: the RST line is held asserted as power comes. -/
  | powerOnReset (rstHeld : Bool)
  /-- RST_RESET (R175): the RST line is asserted. -/
  | rstReset
  /-- RST_RELEASE (R155): the RST line is released. -/
  | rstRelease
  /-- FRAME_ARRIVAL (R172): the last bit of inbound timeslot 44 is taken. `hdi`: the 45 inbound timeslots (R174). -/
  | frameArrival (hdi : Vector Byte 45) (keysw : Bool) (tasks : List FrameTask)
  /-- EARLY_HFS_PULSE (R172): a pulse before timeslot 44 is complete, `period` HCLK periods after the pulse before. -/
  | earlyHfsPulse (period : Nat)
  /-- MESSAGE_COMPLETE (R158). -/
  | messageComplete
  /-- MESSAGE_ABANDONED (R159). -/
  | messageAbandoned
  /-- ORDER_TAKEN (R163). -/
  | orderTaken
  /-- OWED_REFUSAL (R162). -/
  | owedRefusal
  /-- REPLY_START (R167). -/
  | replyStart
  /-- REPORT_START (R147). -/
  | reportStart (keysw : Bool)
  /-- IDENTIFY (R169). -/
  | identify (body : List Byte)
  /-- READ_PORT (R40). -/
  | readPort (body : List Byte)
  /-- SET_PORT (R24). -/
  | setPort (body : List Byte)
  /-- CLEAR_PORT (R39). -/
  | clearPort (body : List Byte)
  /-- READ_PATCH (R14). -/
  | readPatch (body : List Byte)
  /-- DEFINE_PATCH (R10). -/
  | definePatch (body : List Byte)
  /-- SET_MEMBER (R11). -/
  | setMember (body : List Byte)
  /-- DELETE_PATCH (R12). -/
  | deletePatch (body : List Byte)
  /-- CLEAR_BANK (R13). -/
  | clearBank (body : List Byte)
  /-- SWITCH_PLAN (R121). -/
  | switchPlan (body : List Byte)
  /-- ABORT_SWITCH (R127). -/
  | abortSwitch (body : List Byte)
  /-- DECLARE_MAYDAY (R98). -/
  | declareMayday (body : List Byte)
  /-- CLEAR_MAYDAY (R102). -/
  | clearMayday (body : List Byte)
  /-- SOUND_ALERT (R111). -/
  | soundAlert (body : List Byte)
  /-- CANCEL_ALERT (R115). -/
  | cancelAlert (body : List Byte)
  /-- LOAD_TONE (R89). -/
  | loadTone (body : List Byte)
  /-- SET_CADENCE (R90). -/
  | setCadence (body : List Byte)
  /-- PROTECT (R137): SET PROTECTION with operation 01h. -/
  | protect (body : List Byte) (keysw : Bool)
  /-- UNPROTECT (R137): SET PROTECTION with operation 02h. -/
  | unprotect (body : List Byte) (keysw : Bool)
  /-- PROTECT_ALL (R137): SET PROTECTION with operation 03h. -/
  | protectAll (body : List Byte) (keysw : Bool)
  /-- UNPROTECT_ALL (R137): SET PROTECTION with operation 04h. -/
  | unprotectAll (body : List Byte) (keysw : Bool)
  /-- SET_LOCK (R138): SET PROTECTION with operation 05h. -/
  | setLock (body : List Byte) (keysw : Bool)
  /-- CLEAR_LOCK (R138): SET PROTECTION with operation 06h. -/
  | clearLock (body : List Byte) (keysw : Bool)
  /-- READ_PROTECTION (R140). -/
  | readProtection (body : List Byte) (keysw : Bool)
  /-- SET_REPORT_MASK (R151). -/
  | setReportMask (body : List Byte)
  /-- READ_CONDITIONS (R153). -/
  | readConditions (body : List Byte)
  /-- CLEAR_CONDITIONS (R154). -/
  | clearConditions (body : List Byte)
  /-- READ_RING (R79). -/
  | readRing (body : List Byte)
  /-- RESET (R170): the RESET order. -/
  | reset (body : List Byte)
  /-- COR_SETTLED_RISE (R29). -/
  | corSettledRise (p : Port)
  /-- COR_SETTLED_FALL (R29). -/
  | corSettledFall (p : Port)
  /-- EMERGENCY_RISE (R37). -/
  | emergencyRise (p : Port)
  /-- EMG_SETTLED_FALL (R37). -/
  | emgSettledFall (p : Port)
  /-- TALK_TIME_EXPIRY (R32). -/
  | talkTimeExpiry (p : Port)
  /-- KEY_UP_EXPIRY (R68). -/
  | keyUpExpiry (p : Port)
  /-- ENTER_HANG (R71). -/
  | enterHang (p : Port)
  /-- HANG_EXPIRY (R72). -/
  | hangExpiry (p : Port)
  /-- KEY_CONFIRM_EXPIRY (R75). -/
  | keyConfirmExpiry (p : Port)
  /-- ALERT_TIMER_EXPIRY (R114). -/
  | alertTimerExpiry (q : Patch)
  /-- GRACE_TIMER_EXPIRY (R123). -/
  | graceTimerExpiry
  /-- CADENCE_COUNT_END (R92). -/
  | cadenceCountEnd
  /-- UNKNOWN_ORDER (R166): a message whose kind names none of the 24 orders. -/
  | unknownOrder (kind : Byte) (body : List Byte)
  /-- SET_PROTECTION (R135): one whose body is malformed or whose operation is none of the six. -/
  | setProtection (body : List Byte) (keysw : Bool)
  /-- HFS_PULSE (R172): a pulse after the frame in progress has arrived, or while the part waits for one. -/
  | hfsPulse
  /-- NO_PULSE_BY_PERIOD_512 (R172). -/
  | noPulseByPeriod512
deriving DecidableEq, Repr

end Sys2Proof
end

