-- ==== Sys2Proof/Decode.lean ====
section
/-! DEFINITION. Decoding of a command from the bits of spec/opcode_table.json. The table gives no row any bits: the
rows are steps of the block, not words. The decoder therefore answers none for every word. -/

namespace Sys2Proof

/-- The command that the `nbits`-bit word `w` spells by the table's bits: none, since no row has bits. The orders of
the management channel are read from their message bytes by the parser and the order unit (R158, R163). -/
def decodeTableWord (_nbits _w : Nat) : Option Instr := none

end Sys2Proof
end

