-- ==== Sys2Proof/Config.lean ====
section
/-! DEFINITION. What is fixed in the part: its identity codes, sizes and time scales; and the one free value. -/

namespace Sys2Proof.Config

/-- The vendor code IDENTIFY answers with (R169). -/
def vendorCode : Nat := 2417

/-- The part code IDENTIFY answers with (R169). -/
def partCode : Nat := 18

/-- The revision code IDENTIFY answers with (R169). -/
def revisionCode : Nat := 3

/-- Frames in a millisecond (00_scope.md: 8 frames make 1 ms). -/
def framesPerMs : Nat := 8

/-- Frames in a second (R22: s seconds is 8000 × s frames). -/
def framesPerSecond : Nat := 8000

/-- Samples a ring's store holds (R60). -/
def ringSize : Nat := 4096

/-- Positions of the tone memory (R88). -/
def toneSize : Nat := 1024

/-- The gain that stands for unity, used for guest readers (R87). -/
def unityGain : Gain := 64

/-- Orders the order buffer holds (R160). -/
def bufferSize : Nat := 2

/-- Places of the reply queue (R167). -/
def replyPlaces : Nat := 2

/-- Entries of the owed refusal list (R162). -/
def owedSize : Nat := 4

/-- The longest body of a message (R157). -/
def maxBody : Nat := 60

/-- The HCLK period, counted from the pulse, at which a frame has arrived (R172: 360 periods after the pulse). -/
def arrivalPeriod : Nat := 360

/-- The HCLK period after which the part reads and drives nothing further (R172). -/
def lastPeriod : Nat := 512

/-- FREE VALUE (log entry 19). The reported-condition byte of a report whose source has an empty EXC. The spec gives
none; by R144 a queued source always has a non-empty EXC, so no run reaches it. The argument is the source number. -/
opaque reportedOfEmpty : Nat → Byte

end Sys2Proof.Config
end

