-- ==== Sys2Proof/Machine/State.lean ====
section
/-! DEFINITION. The state of the XB-18 as plain data, and the state right after power-on reset. Three parts: the
settings that the RESET order keeps, the live state that it clears, and the two channel ends (management channel and
highway); and the queue of commands that wait. -/

namespace Sys2Proof.Machine

/-- Why the machine stops with a fault: never. The spec describes no condition in which the part stops; what it calls
FAULT is a transmit state (R75). No constructor, so nobody raises one; safe. -/
inductive Fault where
deriving DecidableEq, Repr

/-- Why the machine refuses a command. -/
inductive Refusal where
  /-- Raised by an arm of exec whose command has no meaning yet; no arm does. Safe: the model stops where the part
  goes on. -/
  | notModelled (mnemonic : String)
deriving DecidableEq, Repr

/-! ### Names -/

/-- The duplex setting of a port (R22). -/
inductive Duplex where
  | half
  | full
deriving DecidableEq, Repr

/-- The mode of a patch record or context (R2, R43). -/
inductive Mode where
  | single
  | mix
deriving DecidableEq, Repr

/-- The source of a patch's samples (R43). -/
inductive AudioSource where
  | receive
  | alert
deriving DecidableEq, Repr

/-- The states of the receive machine (R29). -/
inductive RxState where
  | quiet
  | active
  | lockout
deriving DecidableEq, Repr

/-- The states of the transmit machine (R66). -/
inductive TxState where
  | dormant
  | keying
  | onAir
  | hang
  | fault
deriving DecidableEq, Repr

/-- The phases of the cadence generator (R91). -/
inductive CadencePhase where
  | stopped
  | on
  | off
  | silent
deriving DecidableEq, Repr

/-- The switch state of the PSC (R118). -/
inductive SwitchState where
  | none
  | pending
deriving DecidableEq, Repr

/-- The reason of an aborted switch (R118). -/
inductive AbortReason where
  | order
  | mayday
  | alert
deriving DecidableEq, Repr

/-- How the most recent switch ended (R118). -/
inductive LastOutcome where
  | none
  | done
  | forced
  | aborted (reason : AbortReason)
deriving DecidableEq, Repr

/-- An alert timer: stopped, until cancelled, or the frames that remain (R95). -/
inductive AlertTimer where
  | stopped
  | untilCancelled
  | running (frames : Nat)
deriving DecidableEq, Repr

/-- The conditions of all three classes (R143). -/
inductive Cond where
  | stuck
  | emerg
  | keyfail
  | loop
  | lagloss
  | clip
  | mayday
  | maydayHeld
  | alertEnd
  | mixclip
  | restart
  | switchAborted
  | switchDone
deriving DecidableEq, Repr

/-- The statuses of a reply (R164, R165). -/
inductive Status where
  | done
  | accepted
  | clamped
  | malformed
  | unknown
  | range
  | pending
  | locked
  | protectedPort
  | nested
  | override
  | busy
  | conflict
  | state
deriving DecidableEq, Repr

/-- How far the part is in following the highway's frames (R172). -/
inductive FramePhase where
  /-- Reads and drives nothing; waits for an HFS pulse. -/
  | waiting
  /-- A frame is in progress and has not arrived. -/
  | running
  /-- The frame has arrived; period 512 has not passed. -/
  | arrived
deriving DecidableEq, Repr

/-! ### Settings -/

/-- A sample store: (position, sample) pairs in one canonical form, positions strictly rising and no sample 0; an
unlisted position reads as 0 (log entry 17). -/
abbrev Memory := List (Nat × Sample)

/-- A member record (R3). -/
structure MemberRec where
  port : Port
  listen : Bool
  talk : Bool
  rank : Fin 16
  inGain : Gain
  outGain : Gain
  /-- The key-up override in ms, if present. -/
  keyUp : Option Nat
deriving DecidableEq, Repr

/-- A patch record (R2). Two records are identical exactly when they are equal. -/
structure PatchRec where
  valid : Bool
  mode : Mode
  lanes : Vector (Option MemberRec) 8
deriving DecidableEq, Repr

/-- The settable fields of a port record (R22); the kind follows from the port number (R21). Durations in ms, the
talk-time limit in s. -/
structure PortRec where
  duplex : Duplex
  rxlo : Bool
  keyUp : Nat
  hang : Nat
  talkLimit : Nat
  confirm : Nat
  debounce : Nat
deriving DecidableEq, Repr

/-- The cadence settings (R90). -/
structure CadenceSettings where
  loopLength : Nat
  onMs : Nat
  offMs : Nat
  toneGain : Gain
  voiceGain : Gain
deriving DecidableEq, Repr

/-- What the RESET order keeps (R170), but for the active-bank indicator. -/
structure Settings where
  /-- The two banks of eight patch records (R1, R2). -/
  banks : Vector (Vector PatchRec 8) 2
  /-- The port records (R22). -/
  ports : Vector PortRec 18
  /-- The tone memory (R88). -/
  tone : Memory
  /-- The cadence settings (R90). -/
  cadence : CadenceSettings
  /-- The protection flags (R132). -/
  flags : Vector Bool 18
  /-- The protection lock (R132). -/
  plk : Bool
  /-- The report masks, one mask byte a source, with the bits of R177 (R151). -/
  masks : Vector Byte 27
deriving DecidableEq, Repr

/-! ### Live state -/

/-- The debounce of one signalling bit (R27, R28). `count` is the settling count, or in a fresh debounce the length of
the run of `run`. `due` is a settlement that has come about in this frame and is still to be taken (log entry 24). -/
structure Debounce where
  level : Bool
  count : Nat
  fresh : Bool
  run : Bool
  due : Option Bool
deriving DecidableEq, Repr

/-- The receive side of a port: receive machine, talk-time timer, debounces (R29, R31, R27, R37). A running timer
holds the frames that remain; at 0 its expiry is due. -/
structure RxPort where
  rx : RxState
  talk : Option Nat
  cor : Debounce
  emg : Debounce
deriving DecidableEq, Repr

/-- An arbitration context (R43). The floor is the holder or the talker set, in ascending port number; the
restriction is NONE, or MAYDAY with its port. -/
structure Context where
  mode : Mode
  floor : List Port
  restriction : Option Port
  source : AudioSource
deriving DecidableEq, Repr

/-- What the FLA holds for a patch (R41, R43): context, freezing flag, and claimant set in ascending port number. -/
structure FloorState where
  ctx : Context
  freezing : Bool
  claimants : List Port
deriving DecidableEq, Repr

/-- A ring: its store and head (R60). -/
structure Ring where
  store : Memory
  head : Count
deriving DecidableEq, Repr

/-- A reader's place in a ring (R61, R70). -/
structure Reader where
  ring : Patch
  cursor : Count
  endMark : Option Count
deriving DecidableEq, Repr

/-- The transmit machine of a port (R66 to R75). `sample` is the output sample taken in this frame's service;
`hangDue` marks an entry into HANG that the service has found and that is still to be taken (log entry 4). -/
structure TxPort where
  state : TxState
  reader : Option Reader
  keyUp : Option Nat
  hang : Option Nat
  confirm : Option Nat
  hangDue : Bool
  sample : Sample
deriving DecidableEq, Repr

/-- The override state of a patch (R95). -/
structure OverrideState where
  save1 : Option Context
  save2 : Option Context
  mayday : Option Port
  latch : Option Port
  timer : AlertTimer
deriving DecidableEq, Repr

/-- The cadence generator (R91). -/
structure CadenceGen where
  phase : CadencePhase
  count : Nat
  pointer : Nat
deriving DecidableEq, Repr

/-- The Plan Switch Controller (R118). Sets of patches in ascending number. -/
structure SwitchCtl where
  state : SwitchState
  involved : List Patch
  grace : Option Nat
  last : LastOutcome
  lastInvolved : List Patch
  /-- The model's own marker: the expiry of the grace timer that is due in this frame goes before the next idle test
  that finds every involved patch idle (R123; log entry 38). -/
  graceFirst : Bool := false
deriving DecidableEq, Repr

/-- The live state of the blocks: what the RESET order clears, and the active-bank indicator. -/
structure Live where
  /-- The active-bank indicator (R1). -/
  active : Bank
  /-- The receive sides of the ports (PSU). -/
  rx : Vector RxPort 18
  /-- The floors of the patches (FLA). -/
  fla : Vector FloorState 8
  /-- The rings (DRU). -/
  rings : Vector Ring 8
  /-- The transmit machines (DRU). -/
  tx : Vector TxPort 18
  /-- The overrides of the patches (OVC). -/
  ovr : Vector OverrideState 8
  /-- The emergency lamps (R101). -/
  lamps : Vector Bool 18
  /-- The holder of the console guest resource (R107). -/
  guestHolder : Option Patch
  /-- The guest waiting queue (R107). -/
  guestQueue : List Patch
  /-- The cadence generator (R91). -/
  gen : CadenceGen
  /-- The Plan Switch Controller (R118). -/
  switch : SwitchCtl
  /-- EXC of each source, with the bits of R177 (9.2). -/
  exc : Vector Byte 27
  /-- ACC of each source (9.2). -/
  acc : Vector Byte 27
  /-- The report queue (R146). -/
  queue : List Source
  /-- The model's own list of the conditions that the event being taken has raised and that are recorded as it ends
  (R145); empty between steps (log entry 10). -/
  raised : List (Source × Cond)
deriving DecidableEq, Repr

/-! ### Management channel -/

/-- The parser's state (R158). `rtr` is RTR as examined at the kind byte; `got` the body bytes so far, in order. -/
inductive Parser where
  | kind
  | length (kind : Byte) (rtr : Bool)
  | body (kind : Byte) (rtr : Bool) (got : List Byte) (due : Nat)
  | hunt
deriving DecidableEq, Repr

/-- A message the parser has finished with and not yet handed on (R158, R159). -/
inductive Parsed where
  | complete (kind : Byte) (body : List Byte) (rtr : Bool)
  | abandoned (kind : Byte)
deriving DecidableEq, Repr

/-- An order in the order buffer (R160). -/
structure Order where
  kind : Byte
  body : List Byte
deriving DecidableEq, Repr

/-- The order the ORU holds (R163). `due`: a frame has arrived since it was taken, so it is carried out in this
frame. -/
structure HeldOrder where
  kind : Byte
  body : List Byte
  due : Bool
deriving DecidableEq, Repr

/-- An entry of the owed refusal list (R162). -/
structure Owed where
  kind : Byte
  status : Status
deriving DecidableEq, Repr

/-- A place of the reply queue: reserved for the order the ORU holds, or holding the body of a reply (R167). -/
inductive Place where
  | reserved
  | ready (body : List Byte)
deriving DecidableEq, Repr

/-- The management channel: parser, order buffer, owed refusals, held order, reply queue, outbound message (R168). -/
structure Channel where
  parser : Parser
  /-- A finished message that is still to be handed on (log entry 4). -/
  parsed : Option Parsed
  /-- Inbound management bytes of this frame that are still to be parsed (log entry 2). -/
  inBytes : List Byte
  buffer : List Order
  owed : List Owed
  oru : Option HeldOrder
  replies : List Place
  /-- The rest of the outbound message in progress. -/
  out : List Byte
deriving DecidableEq, Repr

/-! ### Highway -/

/-- The outbound slots of a frame (R174). `keys`: PTT of the radio ports, audio present of the console ports. -/
structure Outbound where
  samples : Vector Sample 18
  keys : Vector Bool 18
  lamps : Vector Bool 18
  rtr : Bool
  lane0 : Byte
  lane1 : Byte
deriving DecidableEq, Repr

/-- The Highway Interface (R172 to R175). -/
structure Highway where
  phase : FramePhase
  /-- HCLK periods counted from the pulse: 0, 360 or 512 (log entry 20). -/
  period : Nat
  /-- How many outbound timeslots of the frame before this one were driven (R172). -/
  driven : Nat
  /-- The received samples of the frame (R174). -/
  received : Vector Sample 18
  /-- This frame's ring work is still to be done (log entry 2). -/
  ringDue : Bool
  /-- A frame has arrived and the outbound slots of the next are still to be formed (log entry 7). -/
  formDue : Bool
  /-- The outbound byte places of the next frame filled so far, lane 0 first (R156). -/
  lanes : List Byte
  /-- The outbound slots as formed for the frame in progress (R173). -/
  out : Outbound
  /-- The level of the KEYSW line, `true` for asserted (R134, log entry 12). -/
  keysw : Bool
  /-- A power-on or RST reset is in progress: the RST line is held (R175). -/
  inReset : Bool
deriving DecidableEq, Repr

/-- The whole state. -/
structure State where
  cfg : Settings
  live : Live
  mci : Channel
  hwi : Highway
  /-- The commands that wait, first in first out (log entry 1). -/
  pending : List Instr
deriving DecidableEq, Repr

/-! ### Values after power-on reset -/

/-- A console port: C0 or C1 (R21). -/
def isConsole (p : Port) : Bool := 16 ≤ p.val

/-- The cleared form of a patch record (R2). -/
def PatchRec.cleared : PatchRec := { valid := false, mode := .single, lanes := Vector.replicate 8 none }

/-- The power-on values of a port record (R22). -/
def PortRec.powerOn (p : Port) : PortRec :=
  if isConsole p then
    { duplex := .full, rxlo := false, keyUp := 0, hang := 0, talkLimit := 0, confirm := 0, debounce := 0 }
  else
    { duplex := .half, rxlo := true, keyUp := 250, hang := 500, talkLimit := 120, confirm := 0, debounce := 5 }

/-- The power-on cadence settings (R90). -/
def CadenceSettings.powerOn : CadenceSettings :=
  { loopLength := 1024, onMs := 0, offMs := 0, toneGain := 64, voiceGain := 64 }

/-- The plan in the cleared form (R5). -/
def clearedBanks : Vector (Vector PatchRec 8) 2 := Vector.replicate 2 (Vector.replicate 8 PatchRec.cleared)

/-- The settings after power-on reset. -/
def Settings.powerOn : Settings :=
  { banks := clearedBanks
    ports := Vector.ofFn PortRec.powerOn
    tone := []
    cadence := CadenceSettings.powerOn
    flags := Vector.replicate 18 false
    plk := false
    masks := Vector.replicate 27 0 }

/-- A debounce in which a fresh debounce has begun and no frame has been counted (R28). -/
def Debounce.begun : Debounce := { level := false, count := 0, fresh := true, run := false, due := none }

/-- The EMG debounce of a console port, which has no EMG (R21). -/
def Debounce.unused : Debounce := { level := false, count := 0, fresh := false, run := false, due := none }

/-- The receive side of a port after any reset (R26). -/
def RxPort.fresh (p : Port) : RxPort :=
  { rx := .quiet, talk := none, cor := Debounce.begun, emg := if isConsole p then Debounce.unused else Debounce.begun }

/-- The default context of a patch with mode `m` (R44). -/
def Context.default (m : Mode) : Context := { mode := m, floor := [], restriction := none, source := .receive }

/-- A floor in its default: context, freezing flag and claimants (R44). -/
def FloorState.default (m : Mode) : FloorState := { ctx := Context.default m, freezing := false, claimants := [] }

/-- An empty ring with head 0 (R60). -/
def Ring.fresh : Ring := { store := [], head := 0 }

/-- A transmit machine in DORMANT, its timers stopped and its cursor dropped (R66). -/
def TxPort.dormant : TxPort :=
  { state := .dormant, reader := none, keyUp := none, hang := none, confirm := none, hangDue := false, sample := 0 }

/-- The override state of a patch without overrides (R96). -/
def OverrideState.empty : OverrideState :=
  { save1 := none, save2 := none, mayday := none, latch := none, timer := .stopped }

/-- The cadence generator STOPPED (R91); the discarded count and pointer are held as 0 (log entry 18). -/
def CadenceGen.stopped : CadenceGen := { phase := .stopped, count := 0, pointer := 0 }

/-- The Plan Switch Controller after any reset (R118). The involved set beside a last outcome NONE is the model's: the
spec gives it no value (log entry 35). -/
def SwitchCtl.fresh : SwitchCtl :=
  { state := .none, involved := [], grace := none, last := .none, lastInvolved := [] }

/-- The live state as every kind of reset leaves it, before RESTART is recorded, with the active bank and the mode of
each patch's default context given (R5, R26, R44, R60, R66, R96, R118, R155). -/
def Live.fresh (active : Bank) (mode : Patch → Mode) : Live :=
  { active := active
    rx := Vector.ofFn RxPort.fresh
    fla := Vector.ofFn (fun q => FloorState.default (mode q))
    rings := Vector.replicate 8 Ring.fresh
    tx := Vector.replicate 18 TxPort.dormant
    ovr := Vector.replicate 8 OverrideState.empty
    lamps := Vector.replicate 18 false
    guestHolder := none
    guestQueue := []
    gen := CadenceGen.stopped
    switch := SwitchCtl.fresh
    exc := Vector.replicate 27 0
    acc := Vector.replicate 27 0
    queue := []
    raised := [] }

/-- The system report source (R142). -/
def systemSource : Source := 26

/-- RESTART recorded on the system source of a live state that a reset has just left: RESTART is bit 0 of the system
class (R155, R177), it is nonmaskable, and the report queue is empty, so the system source becomes its one entry. -/
def Live.withRestart (l : Live) : Live :=
  { l with
    exc := l.exc.set systemSource 1
    acc := l.acc.set systemSource 1
    queue := [systemSource] }

/-- The management channel after power-on and RST reset (R168). -/
def Channel.fresh : Channel :=
  { parser := .kind, parsed := none, inBytes := [], buffer := [], owed := [], oru := none, replies := [], out := [] }

/-- The outbound slots while a reset is in progress, and until the first arrival after it (R175). -/
def Outbound.idle : Outbound :=
  { samples := Vector.replicate 18 0
    keys := Vector.replicate 18 false
    lamps := Vector.replicate 18 false
    rtr := false
    lane0 := 0
    lane1 := 0 }

/-- The Highway Interface after power-on reset (R175; log entries 12, 13 and 18). -/
def Highway.fresh (keysw inReset : Bool) : Highway :=
  { phase := .waiting
    period := Config.lastPeriod
    driven := 0
    received := Vector.replicate 18 0
    ringDue := false
    formDue := false
    lanes := []
    out := Outbound.idle
    keysw := keysw
    inReset := inReset }

/-- The machine right after power-on reset, with RST released and no command waiting (R175, R155; log entry 11). -/
def State.reset : State :=
  { cfg := Settings.powerOn
    live := (Live.fresh 0 (fun _ => .single)).withRestart
    mci := Channel.fresh
    hwi := Highway.fresh false false
    pending := [] }

end Sys2Proof.Machine
end

