-- ==== Sys2Proof/Machine/Ops.lean ====
section
/-! DEFINITION. The named operations over tables, sample stores and arithmetic, and the updates of one entry of the
live state. Every block's rules are written over these. -/

namespace Sys2Proof.Machine

/-! ### Tables -/

/-- The entry of a table at an index. -/
def look {α : Type} {n : Nat} (v : Vector α n) (i : Fin n) : α := v[i.val]

/-- A table with one entry replaced. -/
def put {α : Type} {n : Nat} (v : Vector α n) (i : Fin n) (x : α) : Vector α n := v.set i.val x

/-- A table with every entry replaced by a function of its index and value. -/
def mapTable {α β : Type} {n : Nat} (f : Fin n → α → β) (v : Vector α n) : Vector β n :=
  Vector.ofFn (fun i => f i (look v i))

/-- The ports, in ascending number. -/
def allPorts : List Port := [0, 1, 2, 3, 4, 5, 6, 7, 8, 9, 10, 11, 12, 13, 14, 15, 16, 17]

/-- The patches, in ascending number. -/
def allPatches : List Patch := [0, 1, 2, 3, 4, 5, 6, 7]

/-- The lanes, in ascending number. -/
def allLanes : List Lane := [0, 1, 2, 3, 4, 5, 6, 7]

/-- The two console ports (R21). -/
def consolePorts : List Port := [16, 17]

/-! ### Sets of ports, kept in ascending number without repeats -/

/-- A set of ports in its canonical form. -/
def portSet (ps : List Port) : List Port := allPorts.filter (fun p => ps.contains p)

/-- A set of ports with one more. -/
def addPort (p : Port) (ps : List Port) : List Port := portSet (p :: ps)

/-- A set of ports with one less. -/
def dropPort (p : Port) (ps : List Port) : List Port := ps.filter (fun x => x ≠ p)

/-! ### Sample stores -/

/-- The sample at a position; an unlisted position reads as 0 (log entry 17). -/
def Memory.read : Memory → Nat → Sample
  | [], _ => 0
  | (b, v) :: m, a => if a = b then v else Memory.read m a

/-- A store with one sample written. Writing 0 removes the entry, so the canonical form is kept. -/
def Memory.write : Memory → Nat → Sample → Memory
  | [], a, v => if v = 0 then [] else [(a, v)]
  | (b, w) :: m, a, v =>
    if a < b then (if v = 0 then (b, w) :: m else (a, v) :: (b, w) :: m)
    else if a = b then (if v = 0 then m else (b, v) :: m)
    else (b, w) :: Memory.write m a v

/-- No position of the store lies at or below `a`. -/
def Memory.above (a : Nat) : Memory → Bool
  | [] => true
  | (b, _) :: _ => a < b

/-- The canonical form of a store: positions strictly rising, no sample 0. -/
def Memory.wf : Memory → Bool
  | [] => true
  | (a, v) :: m => v ≠ 0 && Memory.above a m && Memory.wf m

/-- Samples written from a start position on, counted modulo `size` (R89). -/
def Memory.load (size : Nat) : Memory → Nat → List Sample → Memory
  | m, _, [] => m
  | m, a, v :: vs => Memory.load size (Memory.write m (a % size) v) (a + 1) vs

/-! ### The mix stage -/

/-- The accumulator: the exact sum of gain × sample over the terms (R81). -/
def accumulate (terms : List (Gain × Sample)) : Int :=
  terms.foldl (fun a t => a + (t.1.toNat : Int) * t.2.toInt) 0

/-- Rounding: q = floor((A + 32) / 64) (R82). -/
def roundStage (a : Int) : Int := (a + 32) / 64

/-- Saturation to the range of a sample (R83). -/
def saturate (q : Int) : Int := if 32767 < q then 32767 else if q < -32768 then -32768 else q

/-- The stage: the sample it gives and whether saturation changed it (R81 to R83). -/
def stage (terms : List (Gain × Sample)) : Sample × Bool :=
  let q := roundStage (accumulate terms)
  (BitVec.ofInt 16 (saturate q), saturate q ≠ q)

/-! ### Timers -/

/-- A duration in ms as a count of frames. A count of 0 expires at the next frame, as a count of 1 does (R68, R71;
log entry 23). -/
def framesOfMs (ms : Nat) : Nat := max 1 (Config.framesPerMs * ms)

/-- A running timer counts down by one at an arrival; at 0 its expiry is due (R68, R123). -/
def countDown : Option Nat → Option Nat
  | some n => some (n - 1)
  | none => none

/-- A timer's expiry is due. -/
def expired (t : Option Nat) : Bool := t == some 0

/-- An alert timer counts down at an arrival (R114). -/
def AlertTimer.countDown : AlertTimer → AlertTimer
  | .running n => .running (n - 1)
  | .stopped => .stopped
  | .untilCancelled => .untilCancelled

/-! ### Updates of one entry of the live state -/

/-- The receive side of one port replaced. -/
def Live.setRx (l : Live) (p : Port) (r : RxPort) : Live := { l with rx := put l.rx p r }

/-- The transmit machine of one port replaced. -/
def Live.setTx (l : Live) (p : Port) (t : TxPort) : Live := { l with tx := put l.tx p t }

/-- The floor state of one patch replaced. -/
def Live.setFloor (l : Live) (q : Patch) (f : FloorState) : Live := { l with fla := put l.fla q f }

/-- The context of one patch replaced. -/
def Live.setCtx (l : Live) (q : Patch) (c : Context) : Live := l.setFloor q { look l.fla q with ctx := c }

/-- The claimant set of one patch replaced. -/
def Live.setClaimants (l : Live) (q : Patch) (ps : List Port) : Live :=
  l.setFloor q { look l.fla q with claimants := ps }

/-- The freezing flag of one patch replaced. -/
def Live.setFreezing (l : Live) (q : Patch) (b : Bool) : Live := l.setFloor q { look l.fla q with freezing := b }

/-- The ring of one patch replaced. -/
def Live.setRing (l : Live) (q : Patch) (r : Ring) : Live := { l with rings := put l.rings q r }

/-- The override state of one patch replaced. -/
def Live.setOvr (l : Live) (q : Patch) (o : OverrideState) : Live := { l with ovr := put l.ovr q o }

/-- The emergency lamp of one port lit or put out (R101). -/
def Live.setLamp (l : Live) (p : Port) (b : Bool) : Live := { l with lamps := put l.lamps p b }

/-- A condition raised by the event being taken (R144, R145). -/
def Live.raise (l : Live) (src : Source) (c : Cond) : Live := { l with raised := l.raised ++ [(src, c)] }

/-- The report source of a port (R142). -/
def portSource (p : Port) : Source := ⟨p.val, by omega⟩

/-- The report source of a patch (R142). -/
def patchSource (q : Patch) : Source := ⟨18 + q.val, by omega⟩

end Sys2Proof.Machine
end

