-- ==== Sys2Proof/Machine/Operands.lean ====
section
/-! DEFINITION. The fields of messages and timeslots: reading the bodies of orders, writing the data of replies and
reports, and the slot map of the highway (R174, R176, R177). -/

namespace Sys2Proof.Machine

/-! ### Reading fields -/

/-- The byte of a body at an index, as a number. -/
def byteAt (body : List Byte) (i : Nat) : Nat := (body.getD i 0).toNat

/-- A field of two bytes, most significant first, unsigned (R176). -/
def wordAt (body : List Byte) (i : Nat) : Nat := 256 * byteAt body i + byteAt body (i + 1)

/-- A bank selector (R1, R176). -/
inductive BankSel where
  | active
  | standby
deriving DecidableEq, Repr

/-- A bank selector field: 00h ACTIVE, 01h STANDBY, nothing else (R176). -/
def readBank (b : Nat) : Option BankSel :=
  if b = 0 then some .active else if b = 1 then some .standby else none

/-- A port field: 0 to 17 (R40). -/
def readPortNumber (b : Nat) : Option Port := if h : b < 18 then some ⟨b, h⟩ else none

/-- A patch field: 0 to 7 (R14). -/
def readPatchNumber (b : Nat) : Option Patch := if h : b < 8 then some ⟨b, h⟩ else none

/-- A lane field: 0 to 7 (R11). -/
def readLane (b : Nat) : Option Lane := if h : b < 8 then some ⟨b, h⟩ else none

/-- A source field: 0 to 26 (R142). -/
def readSource (b : Nat) : Option Source := if h : b < 27 then some ⟨b, h⟩ else none

/-- A patch set: bit i stands for Pi (R176). -/
def readPatchSet (b : Byte) : List Patch := allPatches.filter (fun q => b.getLsbD q.val)

/-- A port set of three bytes, from byte `i` of a body: bit n of the first byte stands for port n, of the second for
port 8 + n, bits 0 and 1 of the third for ports 16 and 17 (R176). -/
def inPortSet (body : List Byte) (i : Nat) (p : Port) : Bool :=
  (body.getD (i + p.val / 8) 0).getLsbD (p.val % 8)

/-- The third byte of a port set names a port above 17 (R176). -/
def portSetTooHigh (body : List Byte) (i : Nat) : Bool := 4 ≤ byteAt body (i + 2)

/-- A lane entry, from byte `i` of a body: `none` where a structural field is out of range, `some none` for an empty
lane, whose other bytes are not read (R176, R177). The key-up override is as carried, not yet clamped. -/
def readMember (body : List Byte) (i : Nat) : Option (Option MemberRec) :=
  let b := body.getD i 0
  if b.getLsbD 7 then
    if hp : b.toNat % 32 < 18 then
      if hr : byteAt body (i + 1) < 16 then
        some (some
          { port := ⟨b.toNat % 32, hp⟩
            listen := b.getLsbD 5
            talk := b.getLsbD 6
            rank := ⟨byteAt body (i + 1), hr⟩
            inGain := body.getD (i + 2) 0
            outGain := body.getD (i + 3) 0
            keyUp := if wordAt body (i + 4) = 65535 then none else some (wordAt body (i + 4)) })
      else none
    else none
  else some none

/-- A list with every element present. -/
def allSome {α : Type} : List (Option α) → Option (List α)
  | [] => some []
  | none :: _ => none
  | some x :: xs => match allSome xs with
    | some ys => some (x :: ys)
    | none => none

/-- The eight lane entries of a record, from byte `i` of a body. -/
def readLanes (body : List Byte) (i : Nat) : Option (Vector (Option MemberRec) 8) :=
  match allSome (allLanes.map (fun n => readMember body (i + 6 * n.val))) with
  | some ms => some (Vector.ofFn (fun n => ms.getD n.val none))
  | none => none

/-- A whole patch record, from byte `i` of a body: header, then eight lanes (R177). -/
def readRecord (body : List Byte) (i : Nat) : Option PatchRec :=
  match readLanes body (i + 1) with
  | some lanes => some
      { valid := (body.getD i 0).getLsbD 0
        mode := if (body.getD i 0).getLsbD 1 then .mix else .single
        lanes := lanes }
  | none => none

/-- A choice byte: 00h or 01h, nothing else (R177). -/
def readChoice (b : Nat) : Option Bool := if b = 0 then some false else if b = 1 then some true else none

/-- The port record of 11 bytes, from byte `i` of a body, durations as carried (R177). -/
def readPortRecord (body : List Byte) (i : Nat) : Option PortRec :=
  match readChoice (byteAt body i), readChoice (byteAt body (i + 1)) with
  | some d, some x => some
      { duplex := if d then .full else .half
        rxlo := x
        keyUp := wordAt body (i + 2)
        hang := wordAt body (i + 4)
        talkLimit := wordAt body (i + 6)
        confirm := wordAt body (i + 8)
        debounce := byteAt body (i + 10) }
  | _, _ => none

/-- The samples of a LOAD TONE body, two bytes each, from a list of bytes (R176). -/
def readSamples : List Byte → List Sample
  | hi :: lo :: rest => (hi ++ lo : BitVec 16) :: readSamples rest
  | _ => []

/-! ### Clamping -/

/-- An override as stored: absent on a console member, at most 1000 ms on a radio member; and whether that changed it
(R3). -/
def storeMember (m : MemberRec) : MemberRec × Bool :=
  match m.keyUp with
  | none => (m, false)
  | some ms =>
    if isConsole m.port then ({ m with keyUp := none }, true)
    else if 1000 < ms then ({ m with keyUp := some 1000 }, true)
    else (m, false)

/-- A lane entry as stored, and whether an override was clamped or discarded. -/
def storeLane : Option MemberRec → Option MemberRec × Bool
  | some m => (some (storeMember m).1, (storeMember m).2)
  | none => (none, false)

/-- A patch record as stored, and whether any override was clamped or discarded (R10). -/
def storeRecord (r : PatchRec) : PatchRec × Bool :=
  ({ r with lanes := mapTable (fun _ m => (storeLane m).1) r.lanes },
   allLanes.any (fun n => (storeLane (look r.lanes n)).2))

/-- The key-confirm timeout as stored (R24). -/
def clampConfirm (t : Nat) : Nat := if t = 0 then 0 else if t < 10 then 10 else min t 2000

/-- A port record as stored for a port: durations clamped (R24), fields fixed for a console port kept (R23). -/
def storePort (p : Port) (r : PortRec) : PortRec :=
  if isConsole p then
    { duplex := .full, rxlo := false, keyUp := 0, hang := min r.hang 5000, talkLimit := min r.talkLimit 600,
      confirm := 0, debounce := 0 }
  else
    { r with
      keyUp := min r.keyUp 1000
      hang := min r.hang 5000
      talkLimit := min r.talkLimit 600
      confirm := clampConfirm r.confirm
      debounce := min r.debounce 50 }

/-! ### Writing fields -/

/-- A number as two bytes, most significant first (R176). -/
def twoBytes (n : Nat) : List Byte := [BitVec.ofNat 8 (n / 256), BitVec.ofNat 8 n]

/-- A flag as 00h or 01h. -/
def boolByte (b : Bool) : Byte := if b then 1 else 0

/-- A number as one byte. -/
def natByte (n : Nat) : Byte := BitVec.ofNat 8 n

/-- The byte whose bit n is `f n`. -/
def bitsByte (f : Nat → Bool) : Byte :=
  (List.range 8).foldl (fun b n => if f n then b ||| (1 <<< n : Byte) else b) 0

/-- A port or FFh for none (R176). -/
def portByte : Option Port → Byte
  | some p => natByte p.val
  | none => 0xFF

/-- A patch or FFh for none (R176). -/
def patchByte : Option Patch → Byte
  | some q => natByte q.val
  | none => 0xFF

/-- A patch set as a byte (R176). -/
def patchSetByte (qs : List Patch) : Byte := bitsByte (fun n => qs.any (fun q => q.val == n))

/-- The 18 protection flags as a port set of three bytes (R139, R176). -/
def portSetBytes (flags : Vector Bool 18) : List Byte :=
  [0, 8, 16].map (fun base => bitsByte (fun n => allPorts.any (fun p => p.val == base + n && look flags p)))

/-- A lane as its six bytes (R177); an empty lane as six bytes 0 (R176, log entry 14). -/
def writeMember : Option MemberRec → List Byte
  | some m =>
    [natByte (128 + (if m.talk then 64 else 0) + (if m.listen then 32 else 0) + m.port.val), natByte m.rank.val,
     m.inGain, m.outGain] ++ twoBytes (m.keyUp.getD 65535)
  | none => [0, 0, 0, 0, 0, 0]

/-- A patch record: header and eight lanes (R177). -/
def writeRecord (r : PatchRec) : List Byte :=
  natByte ((if r.valid then 1 else 0) + (if r.mode = .mix then 2 else 0)) ::
    allLanes.flatMap (fun n => writeMember (look r.lanes n))

/-- A port record of 11 bytes (R177). -/
def writePortRecord (r : PortRec) : List Byte :=
  [boolByte (r.duplex = .full), boolByte r.rxlo] ++ twoBytes r.keyUp ++ twoBytes r.hang ++ twoBytes r.talkLimit ++
    twoBytes r.confirm ++ [natByte r.debounce]

/-- The cadence settings as stored, 8 bytes (R177). -/
def writeCadence (c : CadenceSettings) : List Byte :=
  twoBytes c.loopLength ++ twoBytes c.onMs ++ twoBytes c.offMs ++ [c.toneGain, c.voiceGain]

/-- A receive state (R177). -/
def rxByte : RxState → Byte
  | .quiet => 0x00
  | .active => 0x01
  | .lockout => 0x02

/-- A transmit state (R177). -/
def txByte : TxState → Byte
  | .dormant => 0x00
  | .keying => 0x01
  | .onAir => 0x02
  | .hang => 0x03
  | .fault => 0x04

/-- A status (R177). -/
def statusByte : Status → Byte
  | .done => 0x00
  | .accepted => 0x01
  | .clamped => 0x02
  | .malformed => 0x10
  | .unknown => 0x11
  | .range => 0x12
  | .pending => 0x13
  | .locked => 0x14
  | .protectedPort => 0x15
  | .nested => 0x16
  | .override => 0x17
  | .busy => 0x18
  | .conflict => 0x19
  | .state => 0x1A

/-- A switch state (R177). -/
def switchByte : SwitchState → Byte
  | .none => 0x00
  | .pending => 0x01

/-- A last outcome and its abort reason (R177). -/
def outcomeBytes : LastOutcome → List Byte
  | .none => [0x00, 0x00]
  | .done => [0x01, 0x00]
  | .forced => [0x02, 0x00]
  | .aborted .order => [0x03, 0x01]
  | .aborted .mayday => [0x03, 0x02]
  | .aborted .alert => [0x03, 0x03]

/-- The byte of a bank selector. -/
def bankByte : BankSel → Byte
  | .active => 0x00
  | .standby => 0x01

/-- The kind byte of a REPLY (R157). -/
def replyKind : Byte := 0x80

/-- The kind byte of a REPORT (R157). -/
def reportKind : Byte := 0x81

/-- A message: kind, length, body (R157). -/
def message (kind : Byte) (body : List Byte) : List Byte := kind :: natByte body.length :: body

/-! ### The slot map -/

/-- The inbound timeslot `k` of a frame; 0 outside the 45 slots the part reads. -/
def slotIn (hdi : Vector Byte 45) (k : Nat) : Byte := hdi.getD k 0

/-- The received sample of a port: high byte in timeslot 2p, low byte in 2p + 1 (R174). -/
def receivedSample (hdi : Vector Byte 45) (p : Port) : Sample := slotIn hdi (2 * p.val) ++ slotIn hdi (2 * p.val + 1)

/-- The raw COR of a radio port (timeslots 36, 37) or the talk bit of a console port (timeslot 42) (R174). -/
def rawCor (hdi : Vector Byte 45) (p : Port) : Bool :=
  if isConsole p then (slotIn hdi 42).getLsbD (p.val - 16) else (slotIn hdi (36 + p.val / 8)).getLsbD (p.val % 8)

/-- The raw EMG of a radio port (timeslots 38, 39); console ports have none (R21, R174). -/
def rawEmg (hdi : Vector Byte 45) (p : Port) : Bool :=
  !isConsole p && (slotIn hdi (38 + p.val / 8)).getLsbD (p.val % 8)

/-- The KCF of a radio port (timeslots 40, 41); console ports have none (R21, R174). -/
def rawKcf (hdi : Vector Byte 45) (p : Port) : Bool :=
  !isConsole p && (slotIn hdi (40 + p.val / 8)).getLsbD (p.val % 8)

/-- The two inbound management bytes, lane 0 then lane 1 (timeslots 43, 44; R156, R174). -/
def inboundLanes (hdi : Vector Byte 45) : List Byte := [slotIn hdi 43, slotIn hdi 44]

/-- A port's bit of a table, false outside the 18 ports. -/
def portBit (v : Vector Bool 18) (n : Nat) : Bool := allPorts.any (fun p => p.val == n && look v p)

/-- The high byte of a sample. -/
def highByte (s : Sample) : Byte := s.extractLsb' 8 8

/-- The low byte of a sample. -/
def lowByte (s : Sample) : Byte := s.extractLsb' 0 8

/-- The outbound timeslot `k` of a frame with slots `o`; none where the part drives nothing (R174). -/
def Outbound.slot (o : Outbound) (k : Nat) : Option Byte :=
  if h : k < 36 then
    let s := look o.samples ⟨k / 2, by omega⟩
    some (if k % 2 = 0 then highByte s else lowByte s)
  else if k = 36 then some (bitsByte (fun n => portBit o.keys n))
  else if k = 37 then some (bitsByte (fun n => portBit o.keys (8 + n)))
  else if k = 38 then some (bitsByte (fun n => if n = 2 then o.rtr else n < 2 && portBit o.keys (16 + n)))
  else if k = 39 then some (bitsByte (fun n => portBit o.lamps n))
  else if k = 40 then some (bitsByte (fun n => portBit o.lamps (8 + n)))
  else if k = 41 then some (bitsByte (fun n => portBit o.lamps (16 + n)))
  else if k = 42 then some o.lane0
  else if k = 43 then some o.lane1
  else none

/-- What the part drives on HDO in timeslot `k`: nothing while it waits for a pulse (R172, R174). -/
def State.hdo (s : State) (k : Nat) : Option Byte :=
  match s.hwi.phase with
  | .waiting => none
  | .running => s.hwi.out.slot k
  | .arrived => s.hwi.out.slot k

end Sys2Proof.Machine
end

