-- ==== Sys2Proof/Machine/Flags.lean ====
section
/-! DEFINITION. Conditions and their recording (R142 to R147), the report masks (R151), the report queue (R146), RTR
(R160), and the reply to an order (R164). -/

namespace Sys2Proof.Machine

/-! ### Conditions -/

/-- The three classes of report sources (R142). -/
inductive SourceClass where
  | port
  | patch
  | system
deriving DecidableEq, Repr

/-- The class of a source (R142). -/
def sourceClass (src : Source) : SourceClass :=
  if src.val < 18 then .port else if src.val < 26 then .patch else .system

/-- The bit of a condition in the condition sets of its class; bit 0 has the highest priority (R143, R177). -/
def Cond.bit : Cond → Nat
  | .stuck => 0
  | .emerg => 1
  | .keyfail => 2
  | .loop => 3
  | .lagloss => 4
  | .clip => 5
  | .mayday => 0
  | .maydayHeld => 1
  | .alertEnd => 2
  | .mixclip => 3
  | .restart => 0
  | .switchAborted => 1
  | .switchDone => 2

/-- The mask bit of a maskable condition; none for a nonmaskable one (R143, R177). -/
def Cond.maskBit : Cond → Option Nat
  | .stuck => none
  | .emerg => none
  | .keyfail => some 0
  | .loop => some 1
  | .lagloss => some 2
  | .clip => some 3
  | .mayday => none
  | .maydayHeld => none
  | .alertEnd => some 4
  | .mixclip => some 5
  | .restart => none
  | .switchAborted => none
  | .switchDone => some 6

/-- A byte with one bit set. -/
def bitByte (n : Nat) : Byte := (1 : Byte) <<< n

/-- The mask bits that a source of a class has (9.5, R177). -/
def classMask : SourceClass → Byte
  | .port => 0x0F
  | .patch => 0x30
  | .system => 0x40

/-- A condition counts on a source: it is nonmaskable, or the source's mask for it is clear (R144). -/
def counts (masks : Vector Byte 27) (src : Source) (c : Cond) : Bool :=
  match c.maskBit with
  | none => true
  | some n => !(look masks src).getLsbD n

/-- A source joins the end of the report queue unless it stands in it (R144). -/
def enqueue (src : Source) (queue : List Source) : List Source :=
  if queue.contains src then queue else queue ++ [src]

/-- A condition recorded on a source: in EXC and ACC whatever the mask, and the source queued if it counts (R144). -/
def record (masks : Vector Byte 27) (l : Live) (e : Source × Cond) : Live :=
  { l with
    exc := put l.exc e.1 (look l.exc e.1 ||| bitByte e.2.bit)
    acc := put l.acc e.1 (look l.acc e.1 ||| bitByte e.2.bit)
    queue := if counts masks e.1 e.2 then enqueue e.1 l.queue else l.queue }

/-- The place of a raised condition in the recording order: source number, then priority (R145). -/
def raiseKey (e : Source × Cond) : Nat := 8 * e.1.val + e.2.bit

/-- A raised condition put into its place in a list in recording order. -/
def insertRaised (e : Source × Cond) : List (Source × Cond) → List (Source × Cond)
  | [] => [e]
  | x :: xs => if raiseKey e ≤ raiseKey x then e :: x :: xs else x :: insertRaised e xs

/-- The conditions of one event in recording order: ascending source, and within a source by priority (R145). -/
def recordingOrder (es : List (Source × Cond)) : List (Source × Cond) := es.foldr insertRaised []

/-- The conditions that an event has raised are recorded (R144, R145). -/
def recordRaised (c : Settings) (l : Live) : Live :=
  (recordingOrder l.raised).foldl (record c.masks) { l with raised := [] }

/-! ### Ready to receive -/

/-- RTR: fewer than two orders buffered and fewer than two reply places taken, and no reset in progress (R160). -/
def State.rtr (s : State) : Bool :=
  !s.hwi.inReset && s.mci.buffer.length < Config.bufferSize && s.mci.replies.length < Config.replyPlaces

/-! ### Replies -/

/-- What carrying out an order comes to: the settings and live state after it, the status, and the reply data. -/
structure OrderResult where
  cfg : Settings
  live : Live
  status : Status
  data : List Byte
deriving DecidableEq, Repr

/-- A refused order: no state is changed and the reply has no data (R164). -/
def refuse (st : Status) (c : Settings) (l : Live) : OrderResult := { cfg := c, live := l, status := st, data := [] }

/-- An order that reads: no state is changed. -/
def answer (c : Settings) (l : Live) (data : List Byte) : OrderResult :=
  { cfg := c, live := l, status := .done, data := data }

/-- DONE, or CLAMPED where something was clamped (R165). -/
def doneOr (clamped : Bool) : Status := if clamped then .clamped else .done

/-- The first refusal of a list in the refusal order that applies (R164). -/
def firstRefusal : List (Bool × Status) → Option Status
  | [] => none
  | (b, st) :: rest => if b then some st else firstRefusal rest

/-- The body of a REPLY: the order kind, the status, the data (R157, R177). -/
def replyBody (kind : Byte) (st : Status) (data : List Byte) : List Byte := kind :: statusByte st :: data

end Sys2Proof.Machine
end

