-- ==== Sys2Proof/Machine/Plan.lean ====
section
/-! DEFINITION. What the Plan Store answers (R19), the questions about floors, rings and readers that other rules ask,
and the idle test (R9). -/

namespace Sys2Proof.Machine

/-! ### Plan lookups -/

/-- The number of the STANDBY bank (R1). -/
def standbyBank (active : Bank) : Bank := if active = 0 then 1 else 0

/-- The bank a selector names as the order is carried out (R1). -/
def resolveBank (l : Live) : BankSel → Bank
  | .active => l.active
  | .standby => standbyBank l.active

/-- A record of a bank. -/
def bankRecord (c : Settings) (b : Bank) (q : Patch) : PatchRec := look (look c.banks b) q

/-- The ACTIVE record of a patch position. -/
def activeRecord (c : Settings) (l : Live) (q : Patch) : PatchRec := bankRecord c l.active q

/-- The settings with one record of a bank replaced. -/
def Settings.setRecord (c : Settings) (b : Bank) (q : Patch) (r : PatchRec) : Settings :=
  { c with banks := put c.banks b (put (look c.banks b) q r) }

/-- The member record that a patch record holds for a port, whether the record is valid or not. -/
def laneOf (r : PatchRec) (p : Port) : Option MemberRec :=
  r.lanes.toList.findSome? (fun lane => match lane with
    | some m => if m.port = p then some m else none
    | none => none)

/-- A port stands in a lane of a record, valid or not. -/
def stands (r : PatchRec) (p : Port) : Bool := (laneOf r p).isSome

/-- The member record of a port in a patch of the ACTIVE bank: none in an invalid patch (R2, R19). -/
def memberIn (c : Settings) (l : Live) (q : Patch) (p : Port) : Option MemberRec :=
  if (activeRecord c l q).valid then laneOf (activeRecord c l q) p else none

/-- A port is a TALK member of a valid ACTIVE patch. -/
def talkMember (c : Settings) (l : Live) (q : Patch) (p : Port) : Bool :=
  (memberIn c l q p).any (fun m => m.talk)

/-- A port is a LISTEN member of a valid ACTIVE patch. -/
def listenMember (c : Settings) (l : Live) (q : Patch) (p : Port) : Bool :=
  (memberIn c l q p).any (fun m => m.listen)

/-- The port's patch: the valid ACTIVE patch of which it is a member, or none (R4, R19). -/
def portPatch (c : Settings) (l : Live) (p : Port) : Option Patch :=
  allPatches.find? (fun q => (memberIn c l q p).isSome)

/-! ### Floors -/

/-- The context of a patch. -/
def ctxOf (l : Live) (q : Patch) : Context := (look l.fla q).ctx

/-- The claimants of a patch (R41). -/
def claimantsOf (l : Live) (q : Patch) : List Port := (look l.fla q).claimants

/-- A patch's writer is active: a holder, a non-empty talker set, or source ALERT (R43, R62). -/
def writerActive (l : Live) (q : Patch) : Bool := !(ctxOf l q).floor.isEmpty || (ctxOf l q).source = .alert

/-- A patch is under alert (R95). -/
def underAlert (l : Live) (q : Patch) : Bool := (ctxOf l q).source = .alert

/-- A port holds the floor of a patch or talks in it. -/
def onFloor (l : Live) (q : Patch) (p : Port) : Bool := (ctxOf l q).floor.contains p

/-! ### Readers -/

/-- A transmit machine is keyed: KEYING, ON_AIR or HANG. PTT is asserted exactly then (R66). -/
def keyed (t : TxPort) : Bool := t.state = .keying || t.state = .onAir || t.state = .hang

/-- A port reads a patch's ring (R61). -/
def reads (l : Live) (p : Port) (q : Patch) : Bool :=
  keyed (look l.tx p) && (look l.tx p).reader.any (fun r => r.ring = q)

/-- The readers of a patch's ring, in order of port number (R79). -/
def readersOf (l : Live) (q : Patch) : List Port := allPorts.filter (fun p => reads l p q)

/-- A console port attached as a guest to a patch's ring: both are, while the patch holds the guest resource (R107). -/
def guestOf (l : Live) (p : Port) (q : Patch) : Bool := isConsole p && l.guestHolder == some q

/-- The guest flag of a port: attached, and guest reading not paused (R109, R110, R117). -/
def guestFlag (l : Live) (p : Port) : Bool :=
  isConsole p && (match l.guestHolder with
    | some q => !underAlert l q
    | none => false)

/-- The lag of a port: head minus cursor modulo 65536 while it is a reader, 0 otherwise (R60, R80). -/
def lagOf (l : Live) (p : Port) : Nat :=
  match (look l.tx p).reader with
  | some r => if keyed (look l.tx p) then ((look l.rings r.ring).head - r.cursor).toNat else 0
  | none => 0

/-- The deepest lag among the readers of a patch's ring, 0 with no reader (R80). -/
def deepestLag (l : Live) (q : Patch) : Nat := (readersOf l q).foldl (fun n p => max n (lagOf l p)) 0

/-- A port is entitled to read the ring of a patch (R67). Under ALERT that is every radio member, one with TALK alone too
(R112); what R55 then leaves open of its claim is log entry 33. -/
def entitled (c : Settings) (l : Live) (p : Port) (q : Patch) : Bool :=
  match (ctxOf l q).source with
  | .alert => (memberIn c l q p).isSome && !isConsole p
  | .receive =>
    !onFloor l q p &&
      (if isConsole p && l.guestHolder.isSome then (activeRecord c l q).valid && guestOf l p q
       else listenMember c l q p)

/-- The ring a port is entitled to read: at most one (R67). -/
def entitledRing (c : Settings) (l : Live) (p : Port) : Option Patch :=
  allPatches.find? (fun q => entitled c l p q)

/-! ### Signalling -/

/-- A port's settings make its COR ignored while it is keyed (R34). -/
def ignoresWhenKeyed (r : PortRec) : Bool := r.duplex = .half || r.rxlo

/-- A port has its COR ignored (R34). -/
def corIgnored (c : Settings) (l : Live) (p : Port) : Bool :=
  keyed (look l.tx p) && ignoresWhenKeyed (look c.ports p)

/-- A port is the mayday port of a patch (R33, R95). -/
def isMaydayPort (l : Live) (p : Port) : Bool := allPatches.any (fun q => (look l.ovr q).mayday == some p)

/-- A port is a claimant of no patch yet could be: it is RX_ACTIVE. -/
def rxActive (l : Live) (p : Port) : Bool := (look l.rx p).rx = .active

/-! ### Overrides and the idle test -/

/-- A patch has a mayday, a pending mayday or an alert. -/
def overridden (l : Live) (q : Patch) : Bool :=
  (look l.ovr q).mayday.isSome || (look l.ovr q).latch.isSome || underAlert l q

/-- The idle test of a patch of the ACTIVE bank (R9). -/
def idle (c : Settings) (l : Live) (q : Patch) : Bool :=
  !(activeRecord c l q).valid ||
    ((ctxOf l q).floor.isEmpty && (readersOf l q).isEmpty && !overridden l q)

/-- The switch state is PENDING (R118). -/
def switchPending (l : Live) : Bool := l.switch.state = .pending

/-- Any port of a set has its protection flag at 1 (R133). -/
def anyProtected (c : Settings) (ports : Port → Bool) : Bool := allPorts.any (fun p => ports p && look c.flags p)

end Sys2Proof.Machine
end

