-- ==== Sys2Proof/Machine/Floor.lean ====
section
/-! DEFINITION. Floors and keying: arbitration (chapter 3), the hand-on of floor changes to the transmit machines
(R50, R51, R67 to R73), the receive machine's claims and releases (chapter 2). -/

namespace Sys2Proof.Machine

/-! ### Arbitration -/

/-- The rank of a port in a patch; one above every rank where it is no member. -/
def rankIn (c : Settings) (l : Live) (q : Patch) (p : Port) : Nat :=
  match memberIn c l q p with
  | some m => m.rank.val
  | none => 16

/-- The arbitration key: rank × 32 + port number (R42). -/
def arbKey (c : Settings) (l : Live) (q : Patch) (p : Port) : Nat := 32 * rankIn c l q p + p.val

/-- Selection: the port with the lowest key; nothing from an empty set (R42). -/
def select (key : Port → Nat) : List Port → Option Port
  | [] => none
  | p :: ps => match select key ps with
    | none => some p
    | some b => if key p ≤ key b then some p else some b

/-- Selection repeated for up to `n` places (R42). -/
def selectMany (key : Port → Nat) : Nat → List Port → List Port
  | 0, _ => []
  | n + 1, ps => match select key ps with
    | none => []
    | some p => p :: selectMany key n (dropPort p ps)

/-- A claimant may hold the floor under a restriction: any under NONE; under MAYDAY the mayday port, rank 0, or a
debounced EMG level of HIGH (R52). -/
def eligible (c : Settings) (l : Live) (q : Patch) (restriction : Option Port) (p : Port) : Bool :=
  match restriction with
  | none => true
  | some mp => p = mp || rankIn c l q p = 0 || (look l.rx p).emg.level

/-- The claimants that the restriction allows to hold the floor (R42, R52). -/
def candidates (c : Settings) (l : Live) (q : Patch) : List Port :=
  (claimantsOf l q).filter (eligible c l q (ctxOf l q).restriction)

/-- The one port that selection over the candidates chooses, as a floor (R45). -/
def selectedFloor (c : Settings) (l : Live) (q : Patch) : List Port :=
  (select (arbKey c l q) (candidates c l q)).toList

/-- The four lowest keys among the candidates, as a talker set (R48). -/
def fourLowest (c : Settings) (l : Live) (q : Patch) : List Port :=
  portSet (selectMany (arbKey c l q) 4 (candidates c l q))

/-- No claim is granted and no place is refilled: source ALERT (R55) or freezing (R56). -/
def floorHeld (l : Live) (q : Patch) : Bool := underAlert l q || (look l.fla q).freezing

/-- The floor after a place in it has been freed, from what is left of it: refilled unless held (R47, R48, R49, R54,
R56). -/
def refilledFloor (c : Settings) (l : Live) (q : Patch) (left : List Port) : List Port :=
  if floorHeld l q then left
  else match (ctxOf l q).mode with
    | .mix => fourLowest c l q
    | .single => if left.isEmpty then selectedFloor c l q else left

/-- A holder that a claim of strictly lower rank preempts: not the mayday port, and eligible at that moment. Under MAYDAY
a holder granted by its EMG level keeps the floor when that level has fallen, whoever else claims (R46, R53, R54). -/
def preemptible (c : Settings) (l : Live) (q : Patch) (h : Port) : Bool :=
  (ctxOf l q).restriction ≠ some h && eligible c l q (ctxOf l q).restriction h

/-- The floor after a claim by `p`, which has entered the claimant set (R45, R46, R48, R49, R53, R54, R55, R56). -/
def claimedFloor (c : Settings) (l : Live) (q : Patch) (floor : List Port) (p : Port) : List Port :=
  if floorHeld l q then floor
  else match (ctxOf l q).mode with
    | .mix => fourLowest c l q
    | .single =>
      if (ctxOf l q).restriction = some p then [p]
      else if eligible c l q (ctxOf l q).restriction p then
        match floor with
        | [] => selectedFloor c l q
        | h :: _ => if preemptible c l q h && rankIn c l q p < rankIn c l q h then [p] else floor
      else floor

/-- The floor after the arbitration of the whole patch that ends a freeze by abort (R57): in SINGLE a free floor is
filled, and a waiting claimant of strictly lower rank preempts. -/
def abortedFloor (c : Settings) (l : Live) (q : Patch) : List Port :=
  let floor := (ctxOf l q).floor
  if floorHeld l q then floor
  else match (ctxOf l q).mode with
    | .mix => fourLowest c l q
    | .single => match floor with
      | [] => selectedFloor c l q
      | h :: _ =>
        match select (arbKey c l q)
            ((candidates c l q).filter (fun p => preemptible c l q h && rankIn c l q p < rankIn c l q h)) with
          | some p => [p]
          | none => floor

/-- A port may keep or regain a floor under restriction MAYDAY with mayday port `mp`: it still claims and is eligible
(R52, R105). -/
def keepsUnder (c : Settings) (l : Live) (q : Patch) (mp p : Port) : Bool :=
  (claimantsOf l q).contains p && eligible c l q (some mp) p

/-- Selection over the eligible claimants of a patch under restriction MAYDAY with mayday port `mp`, as a floor (R52,
R105 rule 3). -/
def eligibleFloor (c : Settings) (l : Live) (q : Patch) (mp : Port) : List Port :=
  (select (arbKey c l q) ((claimantsOf l q).filter (eligible c l q (some mp)))).toList

/-- The floor as restriction MAYDAY with mayday port `mp` is set: the mayday port if it claims; else of the holder or
talkers the eligible one with the lowest key; else selection over the eligible claimants (R52). -/
def maydayFloor (c : Settings) (l : Live) (q : Patch) (mp : Port) (floor : List Port) : List Port :=
  if (claimantsOf l q).contains mp then [mp]
  else match select (arbKey c l q) (floor.filter (keepsUnder c l q mp)) with
    | some p => [p]
    | none => eligibleFloor c l q mp

/-- The floor as a context with restriction MAYDAY of mayday port `mp` is restored: the mayday port if it claims; else
the saved holder, or the talker of the saved set with the lowest key, if that one still claims and is eligible; else
selection over the eligible claimants (R105). -/
def restoredMaydayFloor (c : Settings) (l : Live) (q : Patch) (mp : Port) (saved : List Port) : List Port :=
  if (claimantsOf l q).contains mp then [mp]
  else match select (arbKey c l q) saved with
    | some p => if keepsUnder c l q mp p then [p] else eligibleFloor c l q mp
    | none => eligibleFloor c l q mp

/-- A saved floor rebuilt under restriction NONE: saved ports that still claim keep their places, and the claimants
with the lowest keys fill what is left (R104). -/
def rebuiltFloor (c : Settings) (l : Live) (q : Patch) (mode : Mode) (saved : List Port) : List Port :=
  let kept := saved.filter (fun p => (claimantsOf l q).contains p)
  match mode with
  | .single => match kept with
    | p :: _ => [p]
    | [] => (select (arbKey c l q) (claimantsOf l q)).toList
  | .mix =>
    portSet (kept ++ selectMany (arbKey c l q) (4 - kept.length)
      ((claimantsOf l q).filter (fun p => !kept.contains p)))

/-! ### Debounces and COR ignoring -/

/-- A fresh debounce of a port's COR begins (R28, R35). A settlement that came about in this very frame and is still to
be taken is not delivered any more: the model's choice, the spec states neither order (log entry 29). -/
def startFreshCor (p : Port) (l : Live) : Live :=
  l.setRx p { look l.rx p with
    cor := { (look l.rx p).cor with count := 0, fresh := true, run := false, due := none } }

/-- A running fresh debounce is abandoned as ignoring begins; a debounce by R27 goes on (R34, R35). The debounced level
is kept (R36). That the debounce by R27 which follows starts its count at 0, and that a settlement of the abandoned
debounce still to be taken in this frame is dropped, are the model's choices: the spec states neither (log entries 15,
29). -/
def abandonFresh (d : Debounce) : Debounce :=
  if d.fresh then { d with count := 0, fresh := false, run := false, due := none } else d

/-- A port leaves every claimant set. -/
def dropClaims (p : Port) (l : Live) : Live :=
  { l with fla := mapTable (fun _ f => { f with claimants := dropPort p f.claimants }) l.fla }

/-- COR ignoring begins on a port that has just been keyed as a listener: RX_ACTIVE drops to RX_QUIET, the talk-time
timer stops, and its claim, which is only ever a waiting one, is released (R34, R49). So is that of a TALK-only member
which an alert keys, though R55 counts members without LISTEN among those that stay (log entry 33). -/
def ignoreAsKeyed (p : Port) (l : Live) : Live :=
  let r := look l.rx p
  if r.rx = .active then
    dropClaims p (l.setRx p { r with rx := .quiet, talk := none, cor := abandonFresh r.cor })
  else l.setRx p { r with cor := abandonFresh r.cor }

/-! ### Keying and unkeying -/

/-- A keying: KEYING with the cursor at the head, key-up and key-confirm timers loaded, and COR ignoring where the
settings call for it (R67, R68, R74). -/
def key (c : Settings) (p : Port) (q : Patch) (keyUpMs : Nat) (l : Live) : Live :=
  let r := look c.ports p
  let l := l.setTx p
    { state := .keying
      reader := some { ring := q, cursor := (look l.rings q).head, endMark := none }
      keyUp := some (framesOfMs keyUpMs)
      hang := none
      confirm := if r.confirm = 0 then none else some (framesOfMs r.confirm)
      hangDue := false
      sample := 0 }
  if ignoresWhenKeyed r then ignoreAsKeyed p l else l

/-- The key-up a port keys with on a ring: the member record's override if it keys as a member and carries one, else
the port's own (R68). -/
def keyUpFor (c : Settings) (l : Live) (p : Port) (q : Patch) : Nat :=
  if guestOf l p q then (look c.ports p).keyUp
  else match memberIn c l q p with
    | some m => m.keyUp.getD (look c.ports p).keyUp
    | none => (look c.ports p).keyUp

/-- A keyed port leaves the keyed states: its cursor is dropped, its timers stop, and a fresh debounce begins where
its COR was ignored (R35, R73, R75). -/
def leaveKeyed (c : Settings) (p : Port) (target : TxState) (l : Live) : Live :=
  let was := corIgnored c l p
  let l := l.setTx p { TxPort.dormant with state := target }
  if was then startFreshCor p l else l

/-- Unkeying: a reader goes to DORMANT at once; a port that is not keyed is left as it is (R73). -/
def unkey (c : Settings) (p : Port) (l : Live) : Live :=
  if keyed (look l.tx p) then leaveKeyed c p .dormant l else l

/-- A port in FAULT returns to DORMANT; any other is left as it is (R76). -/
def clearFault (p : Port) (l : Live) : Live :=
  if (look l.tx p).state = .fault then l.setTx p TxPort.dormant else l

/-- A reader that is entitled to its ring: the end mark is dropped, and in HANG with the writer active it returns to
ON_AIR with its cursor at the head (R70, R72). -/
def syncEntitled (p : Port) (r : Reader) (l : Live) : Live :=
  let t := look l.tx p
  if t.state = .hang && writerActive l r.ring then
    l.setTx p { t with
      state := .onAir, hang := none
      reader := some { r with cursor := (look l.rings r.ring).head, endMark := none } }
  else l.setTx p { t with reader := some { r with endMark := none } }

/-- A reader that is not entitled to its ring: the head is recorded as its end mark, once (R70). -/
def syncUnentitled (p : Port) (r : Reader) (l : Live) : Live :=
  match r.endMark with
  | some _ => l
  | none => l.setTx p { look l.tx p with reader := some { r with endMark := some (look l.rings r.ring).head } }

/-- A reader follows its entitlement to the ring it reads (R70, R72). -/
def syncReader (c : Settings) (l : Live) (p : Port) : Live :=
  match (look l.tx p).reader with
  | some r => if entitled c l p r.ring then syncEntitled p r l else syncUnentitled p r l
  | none => l

/-- The transmit machine of one port brought in line with floors and plan: a DORMANT port entitled to a ring whose
writer is active keys; a reader follows its entitlement (R67, R70, R72). -/
def syncPort (c : Settings) (l : Live) (p : Port) : Live :=
  match (look l.tx p).state with
  | .dormant => match entitledRing c l p with
    | some q => if writerActive l q then key c p q (keyUpFor c l p q) l else l
    | none => l
  | .fault => l
  | .keying => syncReader c l p
  | .onAir => syncReader c l p
  | .hang => syncReader c l p

/-- Every transmit machine brought in line (R67: a port keys as soon as the three conditions hold together). -/
def sync (c : Settings) (l : Live) : Live := allPorts.foldl (syncPort c) l

/-- A floor put in place: each port that enters it is granted, so it is unkeyed if it reads that ring (R50). -/
def placeFloor (c : Settings) (q : Patch) (ctx : Context) (l : Live) : Live :=
  let grants := ctx.floor.filter (fun p => !(ctxOf l q).floor.contains p)
  grants.foldl (fun l p => if reads l p q then unkey c p l else l) (l.setCtx q ctx)

/-- A port that has lost its place to a restriction keys while the writer is still active, if it is DORMANT and
entitled (R51, R52; log entry 28). -/
def keyLoser (c : Settings) (q : Patch) (l : Live) (p : Port) : Live :=
  if (look l.tx p).state = .dormant && entitled c l p q then key c p q (keyUpFor c l p q) l else l

/-- A claim released by a keying makes a MIX patch select again (R48): claims of `q` went from `before` to `after` and
the selection differs from the floor. -/
def reselects (c : Settings) (before after : Live) (q : Patch) : Bool :=
  (ctxOf after q).mode = .mix && claimantsOf before q ≠ claimantsOf after q &&
    refilledFloor c after q (ctxOf after q).floor ≠ (ctxOf after q).floor

/-- The MIX patch, if any, whose selection is to be made again after the transmit machines have followed. -/
def reselection (c : Settings) (before after : Live) : Option Patch := allPatches.find? (reselects c before after)

/-- The selection of a MIX patch made again, and what follows from it; nothing where none is to be made. -/
def reselect (next : Live → Live) (c : Settings) (l : Live) : Option Patch → Live
  | none => l
  | some q => next (placeFloor c q { ctxOf l q with floor := refilledFloor c l q (ctxOf l q).floor } l)

/-- The hand-on of a floor change: the transmit machines follow, and where a keying has released a claim in a MIX
patch the selection is made again (R48, R49, R51). Every round after the first has released a claim, so 18 rounds are
enough (log entry 16). -/
def handOn : Nat → Settings → Live → Live
  | 0, c, l => sync c l
  | n + 1, c, l => reselect (handOn n c) c (sync c l) (reselection c l (sync c l))

/-- The transmit machines follow whatever has just changed. -/
def settleKeys (c : Settings) (l : Live) : Live := handOn 18 c l

/-- A context installed in a patch, with its grants and losses of place handed on (R50, R51, R59). -/
def install (c : Settings) (q : Patch) (ctx : Context) (l : Live) : Live := settleKeys c (placeFloor c q ctx l)

/-- A floor rearranged by a restriction that has just been set: grants first, then the losses of place, keyed against
the writer as it was, and then the writer's change (R51, R52; log entry 28). -/
def installRestricted (c : Settings) (q : Patch) (ctx : Context) (l : Live) : Live :=
  let lost := (ctxOf l q).floor.filter (fun p => !ctx.floor.contains p)
  settleKeys c (lost.foldl (keyLoser c q) (placeFloor c q ctx l))

/-- A floor installed in a patch's context. -/
def installFloor (c : Settings) (q : Patch) (floor : List Port) (l : Live) : Live :=
  install c q { ctxOf l q with floor := floor } l

/-! ### Claims and releases -/

/-- A claim taken by the FLA: entered and arbitrated if the port is a TALK member of a valid ACTIVE patch, nowhere
otherwise (R41, R45, R46, R48, R53, R54). -/
def claim (c : Settings) (p : Port) (l : Live) : Live :=
  match portPatch c l p with
  | some q =>
    if talkMember c l q p then
      let l := l.setClaimants q (addPort p (claimantsOf l q))
      installFloor c q (claimedFloor c l q (ctxOf l q).floor p) l
    else l
  | none => l

/-- A release taken by the FLA for one patch: the port leaves the claimant set and the floor, and the place is
refilled unless held (R47, R48, R54, R56). -/
def releaseIn (c : Settings) (p : Port) (l : Live) (q : Patch) : Live :=
  if (claimantsOf l q).contains p then
    let left := dropPort p (ctxOf l q).floor
    let l := l.setClaimants q (dropPort p (claimantsOf l q))
    if onFloor l q p || (ctxOf l q).mode = .mix then installFloor c q (refilledFloor c l q left) l else l
  else l

/-- A release taken by the FLA, wherever the port is a claimant (R30, R41). -/
def release (c : Settings) (p : Port) (l : Live) : Live := allPatches.foldl (releaseIn c p) l

/-- The talk-time timer as it starts at an entry into RX_ACTIVE: not with a limit of 0, not for a mayday port (R31,
R33). -/
def talkTimerStart (c : Settings) (l : Live) (p : Port) : Option Nat :=
  if (look c.ports p).talkLimit = 0 || isMaydayPort l p then none
  else some (Config.framesPerSecond * (look c.ports p).talkLimit)

/-- A port enters RX_ACTIVE: its talk-time timer starts and it claims (R29, R30, R31). -/
def enterRxActive (c : Settings) (p : Port) (l : Live) : Live :=
  claim c p (l.setRx p { look l.rx p with rx := .active, talk := talkTimerStart c l p })

/-- A port leaves RX_ACTIVE with a release; its talk-time timer stops (R29 to R32). -/
def leaveRxActive (c : Settings) (p : Port) (target : RxState) (l : Live) : Live :=
  release c p (l.setRx p { look l.rx p with rx := target, talk := none })

/-- COR ignoring begins on a keyed port whose settings have been changed (R25, R34). -/
def beginIgnoring (c : Settings) (p : Port) (l : Live) : Live :=
  let l := l.setRx p { look l.rx p with cor := abandonFresh (look l.rx p).cor }
  if rxActive l p then leaveRxActive c p .quiet l else l

/-- A lockout lifted by a mayday or by CLEAR PORT: RX_QUIET with no release, and a fresh debounce unless the COR is
ignored, where it waits for the ignoring to end (R33, R35, R39). -/
def liftLockout (c : Settings) (p : Port) (l : Live) : Live :=
  if (look l.rx p).rx = .lockout then
    let l := l.setRx p { look l.rx p with rx := .quiet }
    if corIgnored c l p then l else startFreshCor p l
  else l

/-- A rise of a waiting claimant's EMG level on a patch under MAYDAY is treated as a claim by that port (R54). -/
def emgRise (c : Settings) (p : Port) (l : Live) : Live :=
  match portPatch c l p with
  | some q =>
    if (ctxOf l q).restriction.isSome && (claimantsOf l q).contains p && !onFloor l q p then
      installFloor c q (claimedFloor c l q (ctxOf l q).floor p) l
    else l
  | none => l

end Sys2Proof.Machine
end

