-- ==== Sys2Proof/Machine/Switching.lean ====
section
/-! DEFINITION. Plan switching (chapter 7): the involved set, the swap, the force, the abort, the idle test of a
pending switch; and the end of an event, at which that test is made and the raised conditions are recorded. -/

namespace Sys2Proof.Machine

/-! ### What a switch involves -/

/-- A patch is involved in a switch: its ACTIVE and STANDBY records are not identical (R119). -/
def differs (c : Settings) (l : Live) (q : Patch) : Bool :=
  activeRecord c l q ≠ bankRecord c (standbyBank l.active) q

/-- The patches a switch ordered now would involve (R119). -/
def involvedSet (c : Settings) (l : Live) : List Patch := allPatches.filter (differs c l)

/-- A port is affected by a switch: it stands in a lane of the ACTIVE or STANDBY record of an involved patch, valid or
not (R119). -/
def affected (c : Settings) (involved : List Patch) (p : Port) : Bool :=
  involved.any (fun q => stands (bankRecord c 0 q) p || stands (bankRecord c 1 q) p)

/-! ### Rings -/

/-- An emptying: the whole content of the ring is discarded and the head keeps its value (R65). -/
def emptyRing (q : Patch) (l : Live) : Live := l.setRing q { look l.rings q with store := [] }

/-- A reader's cursor, and its end mark if it has one, moved to a head (R65). -/
def flushReader (head : Count) (t : TxPort) : TxPort :=
  match t.reader with
  | some r => { t with reader := some { r with cursor := head, endMark := r.endMark.map (fun _ => head) } }
  | none => t

/-- The place of one reader flushed to a head (R65). -/
def flushPort (head : Count) (l : Live) (p : Port) : Live := l.setTx p (flushReader head (look l.tx p))

/-- A flush: every reader's cursor is set to the head and the content behind it is discarded; states and timers stay
(R65). -/
def flushRing (q : Patch) (l : Live) : Live :=
  let head := (look l.rings q).head
  emptyRing q ((readersOf l q).foldl (flushPort head) l)

/-! ### Claimants from a record -/

/-- The claimants a record gives: its TALK members that are RX_ACTIVE; none if it is invalid (R10, R57). -/
def recordClaimants (c : Settings) (l : Live) (q : Patch) : List Port :=
  allPorts.filter (fun p => talkMember c l q p && rxActive l p)

/-- A patch's floor state set to the default of its ACTIVE record, claimants rebuilt from it, and one arbitration made
(R10, R57, R58). -/
def arbitrateFresh (c : Settings) (l : Live) (q : Patch) : Live :=
  let l := l.setClaimants q (recordClaimants c l q)
  installFloor c q (refilledFloor c l q []) l

/-- A patch's floor state set to its default, with the mode of its ACTIVE record (R44). -/
def defaultFloor (c : Settings) (l : Live) (q : Patch) : Live :=
  l.setFloor q (FloorState.default (activeRecord c l q).mode)

/-! ### The swap -/

/-- A port in FAULT that a swap returns to DORMANT: affected, and no member of a valid patch that is not involved
(R125). -/
def swapClearsFault (c : Settings) (involved : List Patch) (l : Live) (p : Port) : Bool :=
  affected c involved p &&
    (match portPatch c l p with
      | some q => involved.contains q
      | none => true)

/-- The active-bank indicator flipped (R125, step 1). -/
def flipBanks (l : Live) : Live := { l with active := standbyBank l.active }

/-- An involved patch at the swap: default context, freezing clear, ring emptied (R125, step 2). -/
def startFresh (c : Settings) (l : Live) (q : Patch) : Live := emptyRing q (defaultFloor c l q)

/-- A port in FAULT returned to DORMANT where the swap does so (R125, step 3). -/
def swapFault (c : Settings) (involved : List Patch) (l : Live) (p : Port) : Live :=
  if swapClearsFault c involved l p then clearFault p l else l

/-- A switch that has ended: no switch pending, its outcome kept (R125 step 5, R127). -/
def endSwitch (involved : List Patch) (outcome : LastOutcome) (l : Live) : Live :=
  { l with switch := { state := .none, involved := [], grace := none, last := outcome, lastInvolved := involved } }

/-- The swap, with the outcome it is recorded under (R121, R124, R125): the indicator flips; involved patches get
default contexts and empty rings; affected ports leave FAULT; the new claimants are arbitrated; SWITCH_DONE is
raised. -/
def swap (c : Settings) (involved : List Patch) (outcome : LastOutcome) (l : Live) : Live :=
  let l := involved.foldl (startFresh c) (flipBanks l)
  let l := allPorts.foldl (swapFault c involved) l
  let l := involved.foldl (arbitrateFresh c) l
  (endSwitch involved outcome l).raise systemSource .switchDone

/-- A reader unkeyed by an event that takes its ring away (R73). -/
def unkeyReader (c : Settings) (l : Live) (p : Port) : Live := unkey c p l

/-- One involved patch cut by a force: the floor emptied without keying, every reader unkeyed, the ring emptied
(R78, R124). -/
def cutPatch (c : Settings) (l : Live) (q : Patch) : Live :=
  let l := l.setCtx q { ctxOf l q with floor := [] }
  emptyRing q ((readersOf l q).foldl (unkeyReader c) l)

/-- A forced switch: every involved patch is cut, then the banks are swapped (R124). -/
def force (c : Settings) (involved : List Patch) (l : Live) : Live :=
  swap c involved .forced (involved.foldl (cutPatch c) l)

/-- One patch released from freezing by an abort and arbitrated over all its claimants (R57, R127). -/
def thawPatch (c : Settings) (l : Live) (q : Patch) : Live :=
  let l := l.setFreezing q false
  installFloor c q (abortedFloor c l q) l

/-- An abort of the pending switch (R127, R128). -/
def abort (c : Settings) (reason : AbortReason) (l : Live) : Live :=
  (endSwitch l.switch.involved (.aborted reason) (l.switch.involved.foldl (thawPatch c) l)).raise systemSource
    .switchAborted

/-- A patch set freezing (R56). -/
def freezePatch (l : Live) (q : Patch) : Live := l.setFreezing q true

/-- A switch set pending: the involved set recorded, its patches freezing, the grace timer loaded (R121). -/
def setPending (involved : List Patch) (graceSeconds : Nat) (l : Live) : Live :=
  let l := involved.foldl freezePatch l
  { l with switch :=
      { l.switch with
        state := .pending
        involved := involved
        grace := some (Config.framesPerSecond * graceSeconds) } }

/-! ### The end of an event -/

/-- The expiry of the grace timer is due in this frame and goes before the idle test (R123; log entry 38). -/
def expiresFirst (l : Live) : Bool := l.switch.graceFirst && expired l.switch.grace

/-- The PSC's idle test: a pending switch whose involved patches are all idle swaps unforced (R122), but where the grace
timer's expiry goes before the test it is forced, and the forced steps find the patches idle and cut nothing on them
(R123). A patch can only become idle by one of the events R122 names, so the test is made at the end of every event (log
entry 32). -/
def idleTest (c : Settings) (l : Live) : Live :=
  if switchPending l && l.switch.involved.all (idle c l) then
    if expiresFirst l then force c l.switch.involved l else swap c l.switch.involved .done l
  else l

/-- The expiry of the grace timer, if it is due, set before the idle test that may come about in this frame (R123; log
entry 38). -/
def putGraceFirst (l : Live) : Live :=
  if switchPending l && expired l.switch.grace then { l with switch := { l.switch with graceFirst := true } } else l

/-- The end of an event: the PSC's test, then the conditions raised are recorded (R122, R145). -/
def closeEvent (c : Settings) (l : Live) : Live := recordRaised c (idleTest c l)

end Sys2Proof.Machine
end

