-- ==== Sys2Proof/Machine/Override.lean ====
section
/-! DEFINITION. Mayday and evacuation alert (chapter 6), the console guest resource (R107 to R110), and the start and
stop of the cadence generator (R91). -/

namespace Sys2Proof.Machine

/-! ### The console guest resource -/

/-- A console keyed on a guest ring at its head with key-up 0, whether or not the writer is active; not while the
patch is under alert, and not while it holds that floor or talks there (R77, R110). A console that is keyed is left
as it is. -/
def guestKey (c : Settings) (q : Patch) (l : Live) (p : Port) : Live :=
  if (look l.tx p).state = .dormant && !underAlert l q && !onFloor l q p then key c p q 0 l else l

/-- The consoles attached to the ring of a patch that has just become holder: each is unkeyed from the ring it reads,
then keyed on the guest ring (R77, R108). -/
def attach (c : Settings) (q : Patch) (l : Live) : Live :=
  let l := { l with guestHolder := some q }
  let l := consolePorts.foldl (fun l p => unkey c p l) l
  settleKeys c (consolePorts.foldl (guestKey c q) l)

/-- The consoles detached: unkeyed from the guest ring, then keyed in their own patches where they are entitled
(R77, R108). -/
def detach (c : Settings) (q : Patch) (l : Live) : Live :=
  let l := consolePorts.foldl (fun l p => if reads l p q then unkey c p l else l) l
  settleKeys c { l with guestHolder := none }

/-- A patch requests the guest resource at the start of its mayday (R107). -/
def requestGuest (c : Settings) (q : Patch) (l : Live) : Live :=
  match l.guestHolder with
  | none => attach c q l
  | some _ => { l with guestQueue := l.guestQueue ++ [q] }

/-- A patch gives up the guest resource, or leaves its waiting queue (R102, R108). -/
def giveUpGuest (c : Settings) (q : Patch) (l : Live) : Live :=
  if l.guestHolder = some q then
    match l.guestQueue with
    | [] => detach c q l
    | r :: rest => attach c r { l with guestQueue := rest }
  else { l with guestQueue := l.guestQueue.filter (fun r => r ≠ q) }

/-- Guest reading paused as the holder comes under alert (R110). -/
def pauseGuests (c : Settings) (q : Patch) (l : Live) : Live :=
  if l.guestHolder = some q then
    consolePorts.foldl (fun l p => if reads l p q then unkey c p l else l) l
  else l

/-- Guest reading resumed as the holder's alert ends (R110). -/
def resumeGuests (c : Settings) (q : Patch) (l : Live) : Live :=
  if l.guestHolder = some q then consolePorts.foldl (guestKey c q) l else l

/-! ### The cadence generator -/

/-- The generator starting from STOPPED (R91). Count and pointer of SILENT are the model's: the spec gives none (log
entry 18). -/
def CadenceGen.started (s : CadenceSettings) : CadenceGen :=
  if s.onMs = 0 then { phase := .silent, count := 0, pointer := 0 }
  else { phase := .on, count := Config.framesPerMs * s.onMs, pointer := 0 }

/-- The generator starts if it is STOPPED (R91). -/
def startCadence (c : Settings) (l : Live) : Live :=
  if l.gen.phase = .stopped then { l with gen := CadenceGen.started c.cadence } else l

/-- The generator becomes STOPPED when no patch is under alert (R91). -/
def stopCadence (l : Live) : Live :=
  if allPatches.any (underAlert l) then l else { l with gen := CadenceGen.stopped }

/-- The end of an on burst or a gap, when the phase count has reached 0 (R92). -/
def endCadenceCount (s : CadenceSettings) (g : CadenceGen) : CadenceGen :=
  match g.phase with
  | .on =>
    if s.offMs = 0 then { g with count := Config.framesPerMs * s.onMs }
    else { g with phase := .off, count := Config.framesPerMs * s.offMs }
  | .off => { phase := .on, count := Config.framesPerMs * s.onMs, pointer := 0 }
  | .stopped => g
  | .silent => g

/-- The phase count has reached 0 and its end is still to be taken (R92). -/
def cadenceDue (g : CadenceGen) : Bool := (g.phase = .on || g.phase = .off) && g.count = 0

/-- A SET CADENCE taken up by the generator, the settings being stored already (R93). -/
def cadenceChanged (s : CadenceSettings) (g : CadenceGen) : CadenceGen :=
  match g.phase with
  | .stopped => g
  | .silent => if s.onMs = 0 then g else { phase := .on, count := Config.framesPerMs * s.onMs, pointer := 0 }
  | .on => running
  | .off => running
where
  /-- The generator in ON or OFF; the count and pointer that R93 discards in SILENT are held as 0 (log entry 18). -/
  running : CadenceGen :=
    if s.onMs = 0 then { phase := .silent, count := 0, pointer := 0 }
    else { g with pointer := if s.loopLength ≤ g.pointer then 0 else g.pointer }

/-! ### Mayday -/

/-- The mayday port named to the PSU: its talk-time timer stops, or its lockout is lifted (R33). -/
def exemptPort (c : Settings) (p : Port) (l : Live) : Live :=
  if rxActive l p then l.setRx p { look l.rx p with talk := none } else liftLockout c p l

/-- Steps 4 to 7 of the start of a mayday (R99): the PSU is told, the lamp is lit, the guest resource requested, and
MAYDAY raised. -/
def announceMayday (c : Settings) (q : Patch) (p : Port) (l : Live) : Live :=
  let l := exemptPort c p l
  let l := l.setLamp p true
  let l := requestGuest c q l
  l.raise (patchSource q) .mayday

/-- A mayday begins on a patch (R99). -/
def beginMayday (c : Settings) (q : Patch) (p : Port) (l : Live) : Live :=
  let l := if (look l.fla q).freezing then abort c .mayday l else l
  let ctx := ctxOf l q
  let l := l.setOvr q { look l.ovr q with save1 := some ctx, mayday := some p }
  let l := installRestricted c q
    { ctx with mode := .single, restriction := some p, floor := maydayFloor c l q p ctx.floor } l
  announceMayday c q p l

/-- The outcomes of an emergency event (R97). -/
inductive EmergencyCase where
  /-- The port is not a TALK member of a valid ACTIVE patch. -/
  | notMember
  /-- The patch has a mayday. -/
  | hasMayday
  /-- The patch is under alert and its latch holds a port. -/
  | latchFull
  /-- The patch is under alert and its latch is empty: the port is latched. -/
  | latched (q : Patch)
  /-- The mayday begins. -/
  | begins (q : Patch)
deriving DecidableEq, Repr

/-- The case of R97 that an emergency event for a port meets. -/
def emergencyCase (c : Settings) (l : Live) (p : Port) : EmergencyCase :=
  match portPatch c l p with
  | none => .notMember
  | some q =>
    if !talkMember c l q p then .notMember
    else if (look l.ovr q).mayday.isSome then .hasMayday
    else if underAlert l q then
      if (look l.ovr q).latch.isSome then .latchFull else .latched q
    else .begins q

/-- An emergency event taken by the Override Controller (R97). -/
def emergencyEvent (c : Settings) (p : Port) (l : Live) : Live :=
  match emergencyCase c l p with
  | .notMember => l
  | .hasMayday => l
  | .latchFull => l
  | .latched q => (l.setOvr q { look l.ovr q with latch := some p }).raise (patchSource q) .maydayHeld
  | .begins q => beginMayday c q p l

/-- A mayday port that is RX_ACTIVE as its mayday ends starts a full talk-time (R33). -/
def endExemption (c : Settings) (p : Port) (l : Live) : Live :=
  if rxActive l p then l.setRx p { look l.rx p with talk := talkTimerStart c l p } else l

/-- A mayday cleared by order: restore, talk-time, lamp, guest resource (R102). -/
def endMayday (c : Settings) (q : Patch) (p : Port) (l : Live) : Live :=
  let o := look l.ovr q
  let sv := o.save1.getD (Context.default (activeRecord c l q).mode)
  let l := install c q
    { mode := sv.mode, floor := rebuiltFloor c l q sv.mode sv.floor, restriction := none, source := .receive } l
  let l := l.setOvr q { look l.ovr q with save1 := none, mayday := none }
  let l := endExemption c p l
  let l := l.setLamp p false
  giveUpGuest c q l

/-! ### Evacuation alert -/

/-- An alert timer as SOUND ALERT loads it: 0 means until cancelled (R111, R114). -/
def alertTimerOf (seconds : Nat) : AlertTimer :=
  if seconds = 0 then .untilCancelled else .running (Config.framesPerSecond * seconds)

/-- An alert begins on a patch (R111, steps 1 to 6). Every radio member is keyed, and the claim of each whose COR comes
to be ignored is released, that of a member without LISTEN included (log entry 33). -/
def beginAlert (c : Settings) (seconds : Nat) (l : Live) (q : Patch) : Live :=
  let ctx := ctxOf l q
  let l := l.setOvr q { look l.ovr q with save2 := some ctx, timer := alertTimerOf seconds }
  let l := install c q { ctx with source := .alert, floor := [] } l
  let l := flushRing q l
  let l := pauseGuests c q l
  startCadence c l

/-- The context that the end of an alert hands the FLA where no mayday is latched (R104, R105, R113 step 2). -/
def restoredContext (c : Settings) (l : Live) (q : Patch) (sv : Context) : Context :=
  match sv.restriction with
  | none =>
    { mode := sv.mode, floor := rebuiltFloor c l q sv.mode sv.floor, restriction := none, source := .receive }
  | some mp =>
    { mode := .single, floor := restoredMaydayFloor c l q mp sv.floor, restriction := some mp, source := .receive }

/-- An alert ends on a patch over a latched mayday: the mayday begins over the rebuilt context, whose
floor is the saved one for R105 (R113 step 3). -/
def endAlertLatched (c : Settings) (q : Patch) (p : Port) (sv : Context) (l : Live) : Live :=
  let rebuilt : Context :=
    { mode := sv.mode, floor := rebuiltFloor c l q sv.mode sv.floor, restriction := none, source := .receive }
  let l := l.setOvr q
    { look l.ovr q with save1 := some rebuilt, save2 := none, mayday := some p, latch := none, timer := .stopped }
  let l := install c q
    { mode := .single, floor := restoredMaydayFloor c l q p rebuilt.floor, restriction := some p, source := .receive } l
  announceMayday c q p l

/-- An alert ends on a patch (R113). -/
def endAlert (c : Settings) (l : Live) (q : Patch) : Live :=
  let o := look l.ovr q
  let sv := o.save2.getD (Context.default (activeRecord c l q).mode)
  let l := match o.latch with
    | none =>
      install c q (restoredContext c l q sv) (l.setOvr q { o with save2 := none, timer := .stopped })
    | some p => endAlertLatched c q p sv l
  let l := resumeGuests c q l
  let l := stopCadence l
  l.raise (patchSource q) .alertEnd

end Sys2Proof.Machine
end

