-- ==== Sys2Proof/Machine/Audio.lean ====
section
/-! DEFINITION. The ring work of a frame (R60 to R64, R69, R84 to R87, R94): readers are served, the alert sample is
formed, each active writer's sample is appended, and the cadence generator advances. -/

namespace Sys2Proof.Machine

/-! ### Serving readers -/

/-- The store position of a ring count (R60). -/
def ringPosition (n : Count) : Nat := n.toNat % Config.ringSize

/-- A reader has a sample to take: its cursor is below the head, and below its end mark if it has one (R69, R70). -/
def hasSample (ring : Ring) (r : Reader) : Bool := r.cursor ≠ ring.head && r.endMark ≠ some r.cursor

/-- The output gain of a reader: 64 as a guest, else its member record's in the patch whose ring it reads (R69, R87). -/
def outputGain (c : Settings) (l : Live) (p : Port) (q : Patch) : Gain :=
  if guestOf l p q then Config.unityGain
  else match memberIn c l q p with
    | some m => m.outGain
    | none => Config.unityGain

/-- A condition raised if it holds. -/
def raiseIf (b : Bool) (src : Source) (cond : Cond) (l : Live) : Live := if b then l.raise src cond else l

/-- The sample a reader takes, scaled by its output gain, with CLIP raised if the stage clipped (R69, R87). -/
def takeSample (c : Settings) (l : Live) (p : Port) (r : Reader) : Live :=
  let out := stage [(outputGain c l p r.ring, (look l.rings r.ring).store.read (ringPosition r.cursor))]
  raiseIf out.2 (portSource p) .clip
    (l.setTx p { look l.tx p with
      reader := some { r with cursor := r.cursor + 1 }, hangDue := false, sample := out.1 })

/-- A port served in a frame: an ON_AIR reader takes a sample, or has none to take, and then it is to enter HANG if
its writer is idle or it is not entitled (R69, R71). Every other port is sent silence (R66). Where the writer has become
idle, the ring been flushed or the entitlement been lost earlier in this very frame, a reader that has nothing to take
hangs in it, as R69 and R71 have it, where R70's table and R65 name the next frame: the model's reading (log entry 39). -/
def servePort (c : Settings) (l : Live) (p : Port) : Live :=
  let t := look l.tx p
  let silent := l.setTx p { t with hangDue := false, sample := 0 }
  if t.state = .onAir then
    match t.reader with
    | some r =>
      if hasSample (look l.rings r.ring) r then takeSample c l p r
      else l.setTx p { t with
        hangDue := !writerActive l r.ring || !entitled c l p r.ring, sample := 0 }
    | none => silent
  else silent

/-! ### Forming samples -/

/-- The input gain of a port in a patch, as a term with its received sample; no term where it is no member (R84). -/
def inputTerm (c : Settings) (l : Live) (received : Vector Sample 18) (q : Patch) (p : Port) : Option (Gain × Sample) :=
  (memberIn c l q p).map (fun m => (m.inGain, look received p))

/-- The patch sample of a frame: one term for the holder, or one for each talker (R84, R85). Four talkers at gain 32
near full scale clip by R81 to R83; the last sentence of R85 says that they stay within range, and the model follows the
arithmetic (log entry 31). -/
def patchSample (c : Settings) (l : Live) (received : Vector Sample 18) (q : Patch) : Sample × Bool :=
  stage ((ctxOf l q).floor.filterMap (inputTerm c l received q))

/-- The port whose voice goes out with an alert: C0 (R94). -/
def voicePort : Port := 16

/-- The terms of the alert sample: the tone in phase ON, the voice while C0 is RX_ACTIVE (R94). -/
def alertTerms (c : Settings) (l : Live) (received : Vector Sample 18) : List (Gain × Sample) :=
  (if l.gen.phase = .on then [(c.cadence.toneGain, c.tone.read l.gen.pointer)] else []) ++
    (if rxActive l voicePort then [(c.cadence.voiceGain, look received voicePort)] else [])

/-- The alert sample of a frame, common to all alerted patches (R94). With no term it is 0, and nothing clips. -/
def alertSample (c : Settings) (l : Live) (received : Vector Sample 18) : Sample × Bool :=
  stage (alertTerms c l received)

/-! ### Appending -/

/-- Drop-oldest for one port before an append to a ring: a reader at lag 4096 has its cursor advanced and raises
LAGLOSS; one standing at its end mark has the mark advanced with it and raises none (R64). -/
def dropOldest (q : Patch) (l : Live) (p : Port) : Live :=
  let t := look l.tx p
  match t.reader with
  | some r =>
    if reads l p q && lagOf l p = Config.ringSize then
      if r.endMark = some r.cursor then
        l.setTx p { t with reader := some { r with cursor := r.cursor + 1, endMark := some (r.cursor + 1) } }
      else
        (l.setTx p { t with reader := some { r with cursor := r.cursor + 1 } }).raise (portSource p) .lagloss
    else l
  | none => l

/-- A sample appended to a ring: written at the head's position, and the head advances by one (R60, R62). -/
def pushSample (ring : Ring) (s : Sample) : Ring :=
  { store := ring.store.write (ringPosition ring.head) s, head := ring.head + 1 }

/-- The append work of one ring in a frame: nothing while the writer is idle; else drop-oldest, the frame's sample
appended, and MIXCLIP raised if it clipped (R62, R64, R86, R94). -/
def appendRing (c : Settings) (received : Vector Sample 18) (alert : Sample × Bool) (l : Live) (q : Patch) : Live :=
  if writerActive l q then
    let s := if underAlert l q then alert else patchSample c l received q
    let l := allPorts.foldl (dropOldest q) l
    raiseIf s.2 (patchSource q) .mixclip (l.setRing q (pushSample (look l.rings q) s.1))
  else l

/-- The cadence generator's advance after the alert sample of a frame (R92). -/
def advanceCadence (s : CadenceSettings) (g : CadenceGen) : CadenceGen :=
  match g.phase with
  | .on =>
    { g with count := g.count - 1, pointer := if s.loopLength ≤ g.pointer + 1 then 0 else g.pointer + 1 }
  | .off => { g with count := g.count - 1 }
  | .stopped => g
  | .silent => g

/-! ### The ring work -/

/-- A key-up expiry taken: KEYING goes to ON_AIR (R68). -/
def keyUpDone (l : Live) (p : Port) : Live :=
  let t := look l.tx p
  if t.state = .keying && expired t.keyUp then l.setTx p { t with state := .onAir, keyUp := none } else l

/-- The ring work of a frame: key-up expiries, service, alert sample, appends, cadence (R63, R68; log entry 5). Its
conditions are recorded as those of one event (log entry 10). -/
def ringWork (c : Settings) (received : Vector Sample 18) (l : Live) : Live :=
  let l := allPorts.foldl keyUpDone l
  let l := allPorts.foldl (servePort c) l
  let alert := alertSample c l received
  let l := allPatches.foldl (appendRing c received alert) l
  recordRaised c { l with gen := advanceCadence c.cadence l.gen }

/-- An entry into HANG that the service has found (R71): the hang timer is loaded from the port record. -/
def enterHangNow (c : Settings) (l : Live) (p : Port) : Live :=
  let t := look l.tx p
  if t.state = .onAir && t.hangDue then
    l.setTx p { t with
      state := .hang, hang := some (framesOfMs (look c.ports p).hang), hangDue := false, sample := 0 }
  else l

end Sys2Proof.Machine
end

