-- ==== Sys2Proof/Machine/Channel.lean ====
section
/-! DEFINITION. The management channel (chapter 10): the parser, the order buffer, owed refusals, taking and answering
orders, the outbound byte places, reports and their snapshots; and the catching up of steps that come about at once. -/

namespace Sys2Proof.Machine

/-! ### The parser -/

/-- The parser's state and finished message after one byte (R158). -/
def parseByte (rtr : Bool) (b : Byte) : Parser → Parser × Option Parsed
  | .kind => if b = 0 then (.kind, none) else (.length b rtr, none)
  | .length k r =>
    if b = 0 then (.kind, some (.complete k [] r))
    else if b.toNat ≤ Config.maxBody then (.body k r [] b.toNat, none)
    else (.hunt, some (.abandoned k))
  | .body k r got due =>
    if due ≤ 1 then (.kind, some (.complete k (got ++ [b]) r)) else (.body k r (got ++ [b]) (due - 1), none)
  | .hunt => if b = 0 then (.kind, none) else (.hunt, none)

/-- A refusal joins the owed refusal list, unless the list holds four entries already (R162). -/
def owe (kind : Byte) (st : Status) (m : Channel) : Channel :=
  if m.owed.length < Config.owedSize then { m with owed := m.owed ++ [{ kind := kind, status := st }] } else m

/-- A complete message handed on: into the order buffer, or discarded with an owed BUSY if RTR was clear at its kind
byte (R158, R161). -/
def handOnMessage (kind : Byte) (body : List Byte) (rtr : Bool) (m : Channel) : Channel :=
  if rtr then { m with parsed := none, buffer := m.buffer ++ [{ kind := kind, body := body }] }
  else owe kind .busy { m with parsed := none }

/-- An abandoned message: one MALFORMED refusal owed (R159). -/
def handOnAbandoned (kind : Byte) (m : Channel) : Channel := owe kind .malformed { m with parsed := none }

/-- A finished message handed on, if the parser holds one. -/
def handOnParsed (m : Channel) : Channel :=
  match m.parsed with
  | some (.complete k body rtr) => handOnMessage k body rtr m
  | some (.abandoned k) => handOnAbandoned k m
  | none => m

/-! ### Owed refusals and the taking of orders -/

/-- The first owed refusal moves into a free place of the reply queue, if there are both (R162). -/
def moveOwed (m : Channel) : Channel :=
  match m.owed with
  | e :: rest =>
    if m.replies.length < Config.replyPlaces then
      { m with owed := rest, replies := m.replies ++ [.ready (replyBody e.kind e.status [])] }
    else m
  | [] => m

/-- Owed refusals move while there is a free place: at most two (R162). -/
def moveAllOwed (m : Channel) : Channel := moveOwed (moveOwed m)

/-- The ORU takes the first buffered order if it holds none and the reply queue has a free place, which it reserves
(R163). -/
def takeOrder (m : Channel) : Channel :=
  match m.oru, m.buffer with
  | none, o :: rest =>
    if m.replies.length < Config.replyPlaces then
      { m with
        buffer := rest
        oru := some { kind := o.kind, body := o.body, due := false }
        replies := m.replies ++ [.reserved] }
    else m
  | _, _ => m

/-- What the MCI and ORU do at once: hand a finished message on, move owed refusals, take an order (R158, R162,
R163). -/
def catchUpChannel (m : Channel) : Channel := takeOrder (moveAllOwed (handOnParsed m))

/-- Every entry into HANG that the service has found, taken (R71). -/
def enterHangs (c : Settings) (l : Live) : Live := allPorts.foldl (enterHangNow c) l

/-- The end of a cadence count, taken if it has come (R92). -/
def endCadence (c : Settings) (l : Live) : Live :=
  if cadenceDue l.gen then { l with gen := endCadenceCount c.cadence l.gen } else l

/-- The steps of the live state that come about at once (R71, R92). -/
def catchUpLive (c : Settings) (l : Live) : Live := endCadence c (enterHangs c l)

/-- The steps that come about at once, taken before any other command (log entry 4): entries into HANG found by the
service (R71), the end of a cadence count (R92), and the channel's immediate steps. -/
def catchUp (s : State) : State := { s with live := catchUpLive s.cfg s.live, mci := catchUpChannel s.mci }

/-- The parser takes the next inbound byte of the frame, if one is left (R156, R158). -/
def takeByte (s : State) : State :=
  match s.mci.inBytes with
  | [] => s
  | b :: rest =>
    let s := catchUp s
    let r := parseByte s.rtr b s.mci.parser
    { s with mci := { s.mci with inBytes := rest, parser := r.1, parsed := r.2 } }

/-! ### Answering -/

/-- A reply put into the reserved place (R163). -/
def fillReserved (body : List Byte) : List Place → List Place
  | [] => []
  | .reserved :: rest => .ready body :: rest
  | .ready b :: rest => .ready b :: fillReserved body rest

/-- The state after the ORU has carried out the order it held (R163): settings and live state as the order left them,
the reply in its reserved place, the ORU free. -/
def answered (kind : Byte) (r : OrderResult) (s : State) : State :=
  { s with
    cfg := r.cfg
    live := r.live
    mci := { s.mci with
      oru := none
      replies := fillReserved (replyBody kind r.status r.data) s.mci.replies } }

/-- The ORU holds exactly this order, and a frame has arrived since it was taken (R163). -/
def holdsDue (s : State) (kind : Byte) (body : List Byte) : Bool :=
  s.mci.oru == some { kind := kind, body := body, due := true }

/-! ### Snapshots and reports -/

/-- The bits of the save levels present (R149, R177). -/
def saveBits (o : OverrideState) : Byte :=
  natByte ((if o.save1.isSome then 1 else 0) + (if o.save2.isSome then 2 else 0))

/-- The snapshot of a port source (R148, R177). -/
def portSnapshot (c : Settings) (l : Live) (p : Port) : List Byte :=
  [rxByte (look l.rx p).rx, txByte (look l.tx p).state, patchByte (portPatch c l p), boolByte (guestFlag l p)] ++
    twoBytes (lagOf l p)

/-- The four floor ports of a patch snapshot, ascending, unused places FFh (R177). -/
def floorBytes (floor : List Port) : List Byte := [0, 1, 2, 3].map (fun i => portByte floor[i]?)

/-- The snapshot of a patch source (R149, R177). -/
def patchSnapshot (c : Settings) (l : Live) (q : Patch) : List Byte :=
  let ctx := ctxOf l q
  let o := look l.ovr q
  [boolByte (activeRecord c l q).valid, boolByte (ctx.mode = .mix), portByte ctx.restriction,
   boolByte (ctx.source = .alert), natByte ctx.floor.length] ++ floorBytes ctx.floor ++
    [saveBits o, portByte o.latch, boolByte (look l.fla q).freezing] ++ twoBytes (deepestLag l q) ++
    [boolByte (l.guestHolder == some q)]

/-- The grace time remaining in whole milliseconds, rounded down, while PENDING; 0 while NONE (R123, R150). -/
def graceMs (l : Live) : Nat :=
  if switchPending l then l.switch.grace.getD 0 / Config.framesPerMs else 0

/-- The snapshot of the system source, with the KEYSW level read for it (R150, R177). -/
def systemSnapshot (c : Settings) (l : Live) (keysw : Bool) : List Byte :=
  [switchByte l.switch.state, patchSetByte l.switch.involved] ++ twoBytes (graceMs l) ++
    [natByte l.active.val] ++ outcomeBytes l.switch.last ++
    [patchSetByte l.switch.lastInvolved, boolByte c.plk, boolByte keysw]

/-- The snapshot of a source (R147). -/
def snapshot (c : Settings) (l : Live) (keysw : Bool) (src : Source) : List Byte :=
  if h : src.val < 18 then portSnapshot c l ⟨src.val, h⟩
  else if h' : src.val < 26 then patchSnapshot c l ⟨src.val - 18, by omega⟩
  else systemSnapshot c l keysw

/-- The reported condition of an EXC: the bit of highest priority, as its number (R147, R177). An empty EXC has none;
no run starts such a report (R144), and its byte is the free value of log entry 19. -/
def reportedBit (src : Source) (exc : Byte) : Byte :=
  match (List.range 8).find? (fun n => exc.getLsbD n) with
  | some n => natByte n
  | none => Config.reportedOfEmpty src.val

/-- The body of a report as its start takes it (R147, R177). -/
def reportBody (c : Settings) (l : Live) (keysw : Bool) (src : Source) : List Byte :=
  [natByte src.val, reportedBit src (look l.exc src), look l.exc src] ++ snapshot c l keysw src

/-- A report started on a source: its EXC is emptied and it leaves the queue; ACC is not touched (R147). -/
def reportTaken (src : Source) (rest : List Source) (l : Live) : Live :=
  { l with exc := put l.exc src 0, queue := rest }

/-! ### Outbound byte places -/

/-- An outbound byte place of the next frame is open (R173). -/
def laneOpen (s : State) : Bool := s.hwi.formDue && s.hwi.lanes.length < 2

/-- The next open byte place filled with a byte. -/
def putLane (b : Byte) (s : State) : State := { s with hwi := { s.hwi with lanes := s.hwi.lanes ++ [b] } }

/-- A message in progress goes on in the next byte place, if one is open (R167). -/
def continueOnce (s : State) : State :=
  match s.mci.out with
  | b :: rest => if laneOpen s then putLane b { s with mci := { s.mci with out := rest } } else s
  | [] => s

/-- A message in progress goes on in every open byte place (R167). -/
def continueMessage (s : State) : State := continueOnce (continueOnce s)

/-- A message started in the next byte place, going on in the one after it if that is open (R167). -/
def startMessage (msg : List Byte) (s : State) : State :=
  continueMessage { s with mci := { s.mci with out := msg } }

/-- A byte place is open and no message is in progress (R167). -/
def laneFree (s : State) : Bool := laneOpen s && s.mci.out.isEmpty

/-- The body of the reply that goes out next: the first place of the reply queue, if it is ready (R167). -/
def nextReply (m : Channel) : Option (List Byte) :=
  match m.replies with
  | .ready body :: _ => some body
  | .reserved :: _ => none
  | [] => none

/-- The source whose report goes out next: the first queued source, if no ready reply is first (R167). -/
def nextReport (s : State) : Option Source :=
  if (nextReply s.mci).isSome then none else s.live.queue.head?

/-- The first reply started: it leaves the reply queue as its first byte is placed (R167). -/
def sendReply (body : List Byte) (s : State) : State :=
  startMessage (message replyKind body) { s with mci := { s.mci with replies := s.mci.replies.tail } }

/-- The report of a source started (R147, R167). -/
def sendReport (src : Source) (s : State) : State :=
  startMessage (message reportKind (reportBody s.cfg s.live s.hwi.keysw src))
    { s with live := reportTaken src s.live.queue.tail s.live }

/-- What a free byte place carries (R167): a ready first reply, else a report, else idle fill. A MALFORMED owed for the
first frame after a power-on or RST reset is such a reply, and goes before the RESTART report of R168 (log
entry 36). -/
def chooseLane (s : State) : State :=
  match nextReply s.mci with
  | some body => sendReply body s
  | none => match s.live.queue with
    | src :: _ => sendReport src s
    | [] => putLane 0 s

end Sys2Proof.Machine
end

