-- ==== Sys2Proof/WellFormed.lean ====
section
/-! DEFINITION. Which commands are well formed: what a command must satisfy to name something the spec allows. A
command that is not well formed changes nothing in the machine; the check says why it cannot come about. -/

namespace Sys2Proof

/-- The kind bytes of the 24 orders (R177). -/
def orderKinds : List Byte :=
  [0x01, 0x02, 0x10, 0x11, 0x12, 0x20, 0x21, 0x22, 0x23, 0x24, 0x30, 0x31,
   0x40, 0x41, 0x42, 0x43, 0x48, 0x49, 0x50, 0x51, 0x60, 0x61, 0x62, 0x70]

/-- A message body has at most 60 bytes (R157). -/
def bodyFits (body : List Byte) : Bool := body.length ≤ Config.maxBody

/-- The body of a SET PROTECTION order with operation `op` (R135, R177): four bytes, the operation first. -/
def isOperation (op : Byte) (body : List Byte) : Bool := body.length == 4 && body.head? == some op

/-- A well-formed command. -/
def Instr.wf : Instr → Bool
  | .earlyHfsPulse period => period < Config.arrivalPeriod
  | .emergencyRise p => p.val < 16
  | .emgSettledFall p => p.val < 16
  | .unknownOrder kind body => kind ≠ 0 && !orderKinds.contains kind && bodyFits body
  | .protect body _ => isOperation 0x01 body
  | .unprotect body _ => isOperation 0x02 body
  | .protectAll body _ => isOperation 0x03 body
  | .unprotectAll body _ => isOperation 0x04 body
  | .setLock body _ => isOperation 0x05 body
  | .clearLock body _ => isOperation 0x06 body
  | .setProtection body _ =>
      bodyFits body && [0x01, 0x02, 0x03, 0x04, 0x05, 0x06].all (fun op => !isOperation op body)
  | .identify body => bodyFits body
  | .readPort body => bodyFits body
  | .setPort body => bodyFits body
  | .clearPort body => bodyFits body
  | .readPatch body => bodyFits body
  | .definePatch body => bodyFits body
  | .setMember body => bodyFits body
  | .deletePatch body => bodyFits body
  | .clearBank body => bodyFits body
  | .switchPlan body => bodyFits body
  | .abortSwitch body => bodyFits body
  | .declareMayday body => bodyFits body
  | .clearMayday body => bodyFits body
  | .soundAlert body => bodyFits body
  | .cancelAlert body => bodyFits body
  | .loadTone body => bodyFits body
  | .setCadence body => bodyFits body
  | .readProtection body _ => bodyFits body
  | .setReportMask body => bodyFits body
  | .readConditions body => bodyFits body
  | .clearConditions body => bodyFits body
  | .readRing body => bodyFits body
  | .reset body => bodyFits body
  | .powerOnReset _ => true
  | .rstReset => true
  | .rstRelease => true
  | .frameArrival _ _ _ => true
  | .messageComplete => true
  | .messageAbandoned => true
  | .orderTaken => true
  | .owedRefusal => true
  | .replyStart => true
  | .reportStart _ => true
  | .corSettledRise _ => true
  | .corSettledFall _ => true
  | .talkTimeExpiry _ => true
  | .keyUpExpiry _ => true
  | .enterHang _ => true
  | .hangExpiry _ => true
  | .keyConfirmExpiry _ => true
  | .alertTimerExpiry _ => true
  | .graceTimerExpiry => true
  | .cadenceCountEnd => true
  | .hfsPulse => true
  | .noPulseByPeriod512 => true

end Sys2Proof
end

