-- ==== Sys2Proof/Machine/Carry.lean ====
section
/-! DEFINITION. How the ORU carries out the order it holds (R163, R164): the shared operation that every order's
meaning is written over. -/

namespace Sys2Proof.Machine

/-- The ring work of the frame, if it is still to be done (R63). The entries into HANG and the end of a cadence count
that it finds are steps of their own, taken next (R71, R92; log entry 4). -/
def finishRing (s : State) : State :=
  if s.hwi.ringDue then
    let t := catchUp s
    { t with
      live := ringWork t.cfg t.hwi.received t.live
      hwi := { t.hwi with ringDue := false } }
  else s

/-- An order carried out: only if the ORU holds it and a frame has arrived since it was taken; otherwise nothing
changes (R163; log entry 3). -/
def carryOut (kind : Byte) (body : List Byte) (f : Settings → Live → OrderResult) (s : State) : State :=
  if holdsDue s kind body then
    let t := catchUp s
    answered kind (f t.cfg t.live) t
  else s

/-- An order whose changes act from the samples formed in the frame after it: carried out after this frame's ring work
(R18, R84, R89, R93; log entry 6). -/
def carryOutAfterRing (kind : Byte) (body : List Byte) (f : Settings → Live → OrderResult) (s : State) : State :=
  if holdsDue s kind body then
    let t := catchUp (finishRing s)
    answered kind (f t.cfg t.live) t
  else s

/-- An order that reads the KEYSW line, at the level the line has as it is carried out (R134). -/
def carryOutWithKey (kind : Byte) (body : List Byte) (keysw : Bool) (f : Settings → Live → Bool → OrderResult)
    (s : State) : State :=
  if holdsDue s kind body then
    let t := catchUp { s with hwi := { s.hwi with keysw := keysw } }
    answered kind (f t.cfg t.live keysw) t
  else s

end Sys2Proof.Machine
end

