-- ==== Sys2Proof/Machine/Resets.lean ====
section
/-! DEFINITION. The three kinds of reset (R5, R26, R44, R66, R96, R118, R132, R155, R168, R170, R175). -/

namespace Sys2Proof.Machine

/-- The machine after the application of power: complete with RESTART recorded if the RST line is released, still in
progress if it is held (R155, R175; log entry 11). -/
def poweredOn (rstHeld : Bool) (s : State) : State :=
  let live := Live.fresh 0 (fun _ => .single)
  { State.reset with
    live := if rstHeld then live else live.withRestart
    hwi := Highway.fresh s.hwi.keysw rstHeld
    pending := s.pending }

/-- What RST reset keeps of the settings: protection, the tone memory and the cadence settings (R88, R90, R132). -/
def Settings.afterRst (c : Settings) : Settings :=
  { Settings.powerOn with tone := c.tone, cadence := c.cadence, flags := c.flags, plk := c.plk }

/-- The highway attachment as RST is asserted: outputs idle, no inbound slot read, the count of the frame going on
(R172, R175; log entry 13). -/
def Highway.intoReset (h : Highway) : Highway :=
  { h with
    received := Vector.replicate 18 0
    ringDue := false
    formDue := false
    lanes := []
    out := Outbound.idle
    inReset := true }

/-- The machine as RST is asserted (R175). RESTART is recorded only as the line is released (R155). -/
def rstAsserted (s : State) : State :=
  { s with
    cfg := s.cfg.afterRst
    live := Live.fresh 0 (fun _ => .single)
    mci := Channel.fresh
    hwi := s.hwi.intoReset }

/-- The machine as RST is released: the reset ends and RESTART is recorded (R155). -/
def rstReleased (s : State) : State :=
  { s with live := s.live.withRestart, hwi := { s.hwi with inReset := false } }

/-- The management channel after the RESET order: its DONE reply alone in the reply queue, a message being sent goes
on, everything else discarded (R168, R170). The two management bytes of the frame at whose arrival it is carried out came
before it, so they are lost with the message in progress, and no order can take a place beside the reply before the slots
that R175 describes are formed (log entry 34). -/
def Channel.afterResetOrder (m : Channel) : Channel :=
  { Channel.fresh with
    replies := [.ready (replyBody 0x02 .done [])]
    out := m.out }

/-- The live state after the RESET order: the indicator and the modes of the records kept, RESTART recorded (R5, R44,
R155, R170). -/
def Live.afterResetOrder (c : Settings) (l : Live) : Live :=
  (Live.fresh l.active (fun q => (activeRecord c l q).mode)).withRestart

/-- The RESET order carried out (R170). -/
def resetByOrder (s : State) : State :=
  { s with live := s.live.afterResetOrder s.cfg, mci := s.mci.afterResetOrder }

/-- The RESET order held by the ORU is carried out, or refused where it carries a body (R166, R170). -/
def carryReset (body : List Byte) (s : State) : State :=
  if body.length ≠ 0 then carryOut 0x02 body (fun c l => refuse .malformed c l) s
  else if holdsDue s 0x02 body then resetByOrder s
  else s

/-- A RESET order that is due is carried out before an outbound byte place of its frame is chosen (R175; log
entry 9). -/
def resetFirst (s : State) : State := carryReset [] s

/-- The meaning of POWER_ON_RESET. -/
def execPowerOnReset (rstHeld : Bool) (s : State) : Host.Outcome State Fault Refusal := .next (poweredOn rstHeld s)

/-- The meaning of RST_RESET. -/
def execRstReset (s : State) : Host.Outcome State Fault Refusal := .next (rstAsserted s)

/-- The meaning of RST_RELEASE: nothing where the line is not held. -/
def execRstRelease (s : State) : Host.Outcome State Fault Refusal :=
  .next (if s.hwi.inReset then rstReleased s else s)

/-- The meaning of RESET. -/
def execReset (body : List Byte) (s : State) : Host.Outcome State Fault Refusal := .next (carryReset body s)

end Sys2Proof.Machine
end

