-- ==== Sys2Proof/Machine/Events.lean ====
section
/-! DEFINITION. The part's own events: settled signalling (chapter 2), timer expiries (chapters 2, 4, 6, 7), and the
steps of the management channel (chapter 10). An event that has not come about changes nothing (log entry 3). -/

namespace Sys2Proof.Machine

/-- An event of the live state taken, if it is due: what comes about at once goes before it, and its conditions are
recorded as it ends (R145; log entry 4). -/
def takeEvent (due : Bool) (f : Settings → Live → Live) (s : State) : State :=
  if due then
    let t := catchUp s
    { t with live := closeEvent t.cfg (f t.cfg t.live) }
  else s

/-! ### Settled signalling -/

/-- A debounce whose settlement has been taken: the level is the settled one and the bit is debounced by R27 from now
on (R27, R28). -/
def Debounce.settled (v : Bool) : Debounce := { level := v, count := 0, fresh := false, run := false, due := none }

/-- A port whose settings make a rise of its ignored COR a LOOP (R36). -/
def loops (r : PortRec) : Bool := r.duplex = .full && r.rxlo

/-- The receive machine takes a settled rise (R29). -/
def receiveRise (c : Settings) (p : Port) (l : Live) : Live :=
  if (look l.rx p).rx = .quiet then enterRxActive c p l else l

/-- The receive machine takes a settled fall (R29). -/
def receiveFall (c : Settings) (p : Port) (l : Live) : Live :=
  match (look l.rx p).rx with
  | .active => leaveRxActive c p .quiet l
  | .lockout => l.setRx p { look l.rx p with rx := .quiet, talk := none }
  | .quiet => l

/-- A settled rise of a port's COR (R29, R34, R36). -/
def corRise (p : Port) (c : Settings) (l : Live) : Live :=
  let l := l.setRx p { look l.rx p with cor := Debounce.settled true }
  if corIgnored c l p then
    (if loops (look c.ports p) then l.raise (portSource p) .loop else l)
  else receiveRise c p l

/-- A settled fall of a port's COR (R29, R34). -/
def corFall (p : Port) (c : Settings) (l : Live) : Live :=
  let l := l.setRx p { look l.rx p with cor := Debounce.settled false }
  if corIgnored c l p then l else receiveFall c p l

/-- An emergency rise: the level to the Floor Arbiter, EMERG on the port, the emergency event to the Override
Controller (R37, R54, R97). -/
def emergencyRise (p : Port) (c : Settings) (l : Live) : Live :=
  let l := l.setRx p { look l.rx p with emg := Debounce.settled true }
  let l := l.raise (portSource p) .emerg
  emergencyEvent c p (emgRise c p l)

/-- A settled fall of EMG: the level alone (R37, R54). -/
def emgFall (p : Port) (_c : Settings) (l : Live) : Live :=
  l.setRx p { look l.rx p with emg := Debounce.settled false }

/-- The settlement of a port's COR, whichever way it has settled. -/
def takeCor (p : Port) (s : State) : State :=
  match (look s.live.rx p).cor.due with
  | some true => takeEvent true (corRise p) s
  | some false => takeEvent true (corFall p) s
  | none => s

/-- The settlement of a port's EMG, whichever way it has settled. -/
def takeEmg (p : Port) (s : State) : State :=
  match (look s.live.rx p).emg.due with
  | some true => takeEvent true (emergencyRise p) s
  | some false => takeEvent true (emgFall p) s
  | none => s

/-! ### Timers -/

/-- A talk-time expiry (R32). -/
def talkTimeUp (p : Port) (c : Settings) (l : Live) : Live :=
  (leaveRxActive c p .lockout l).raise (portSource p) .stuck

/-- A talk-time expiry taken, if it is due. -/
def takeTalkTime (p : Port) (s : State) : State :=
  takeEvent (rxActive s.live p && expired (look s.live.rx p).talk) (talkTimeUp p) s

/-- A key-up expiry is due: the port is in KEYING and its count has reached 0 (R68). -/
def keyUpDue (l : Live) (p : Port) : Bool := (look l.tx p).state = .keying && expired (look l.tx p).keyUp

/-- A key-up expiry taken, if it is due (R68). -/
def takeKeyUp (p : Port) (s : State) : State :=
  takeEvent (keyUpDue s.live p) (fun _ l => keyUpDone l p) s

/-- A hang expiry: DORMANT, and keyed again at once where entitled to a ring whose writer is active (R72). -/
def hangUp (p : Port) (c : Settings) (l : Live) : Live := settleKeys c (leaveKeyed c p .dormant l)

/-- A hang expiry taken, if it is due (R72). -/
def takeHang (p : Port) (s : State) : State :=
  takeEvent ((look s.live.tx p).state = .hang && expired (look s.live.tx p).hang) (hangUp p) s

/-- A key-confirm expiry: FAULT and KEYFAIL (R75). -/
def confirmUp (p : Port) (c : Settings) (l : Live) : Live :=
  (leaveKeyed c p .fault l).raise (portSource p) .keyfail

/-- A key-confirm expiry taken, if it is due (R75). -/
def takeKeyConfirm (p : Port) (s : State) : State :=
  takeEvent (keyed (look s.live.tx p) && expired (look s.live.tx p).confirm) (confirmUp p) s

/-- An alert timer's expiry taken, if it is due (R114). -/
def takeAlertTimer (q : Patch) (s : State) : State :=
  takeEvent (underAlert s.live q && (look s.live.ovr q).timer == .running 0) (fun c l => endAlert c l q) s

/-- The grace timer's expiry taken, if it is due (R123). -/
def takeGrace (s : State) : State :=
  takeEvent (switchPending s.live && expired s.live.switch.grace) (fun c l => force c l.switch.involved l) s

/-! ### Meanings of signalling events -/

/-- The meaning of COR_SETTLED_RISE. -/
def execCorSettledRise (p : Port) (s : State) : Host.Outcome State Fault Refusal :=
  .next (takeEvent ((look s.live.rx p).cor.due == some true) (corRise p) s)

/-- The meaning of COR_SETTLED_FALL. -/
def execCorSettledFall (p : Port) (s : State) : Host.Outcome State Fault Refusal :=
  .next (takeEvent ((look s.live.rx p).cor.due == some false) (corFall p) s)

/-- The meaning of EMERGENCY_RISE. -/
def execEmergencyRise (p : Port) (s : State) : Host.Outcome State Fault Refusal :=
  .next (takeEvent ((look s.live.rx p).emg.due == some true) (emergencyRise p) s)

/-- The meaning of EMG_SETTLED_FALL. -/
def execEmgSettledFall (p : Port) (s : State) : Host.Outcome State Fault Refusal :=
  .next (takeEvent ((look s.live.rx p).emg.due == some false) (emgFall p) s)

/-! ### Meanings of timer events -/

/-- The meaning of TALK_TIME_EXPIRY. -/
def execTalkTimeExpiry (p : Port) (s : State) : Host.Outcome State Fault Refusal := .next (takeTalkTime p s)

/-- The meaning of KEY_UP_EXPIRY. -/
def execKeyUpExpiry (p : Port) (s : State) : Host.Outcome State Fault Refusal := .next (takeKeyUp p s)

/-- The meaning of ENTER_HANG: nothing where the service has not found the entry (R71). -/
def execEnterHang (p : Port) (s : State) : Host.Outcome State Fault Refusal :=
  .next { s with live := enterHangNow s.cfg s.live p }

/-- The meaning of HANG_EXPIRY. -/
def execHangExpiry (p : Port) (s : State) : Host.Outcome State Fault Refusal := .next (takeHang p s)

/-- The meaning of KEY_CONFIRM_EXPIRY. -/
def execKeyConfirmExpiry (p : Port) (s : State) : Host.Outcome State Fault Refusal := .next (takeKeyConfirm p s)

/-- The meaning of ALERT_TIMER_EXPIRY. -/
def execAlertTimerExpiry (q : Patch) (s : State) : Host.Outcome State Fault Refusal := .next (takeAlertTimer q s)

/-- The meaning of GRACE_TIMER_EXPIRY. -/
def execGraceTimerExpiry (s : State) : Host.Outcome State Fault Refusal := .next (takeGrace s)

/-- The meaning of CADENCE_COUNT_END: nothing while no count has reached 0 (R92). -/
def execCadenceCountEnd (s : State) : Host.Outcome State Fault Refusal :=
  .next { s with live := endCadence s.cfg s.live }

/-! ### Meanings of channel events -/

/-- A completed message handed on, if the parser has one (R158). -/
def takeMessage (m : Channel) : Channel :=
  match m.parsed with
  | some (.complete k body rtr) => handOnMessage k body rtr m
  | some (.abandoned _) => m
  | none => m

/-- The refusal of an abandoned message owed, if the parser has one (R159). -/
def takeAbandoned (m : Channel) : Channel :=
  match m.parsed with
  | some (.abandoned k) => handOnAbandoned k m
  | some (.complete _ _ _) => m
  | none => m

/-- The ORU can take an order: it holds none, one is buffered, and a reply place is free (R163). -/
def canTake (m : Channel) : Bool :=
  m.oru.isNone && !m.buffer.isEmpty && m.replies.length < Config.replyPlaces

/-- An order taken once the owed refusals have had the free places, if one can be taken then (R162, R163). -/
def takeNextOrder (m : Channel) : Channel :=
  if canTake (moveAllOwed m) then takeOrder (moveAllOwed m) else m

/-- The meaning of MESSAGE_COMPLETE. -/
def execMessageComplete (s : State) : Host.Outcome State Fault Refusal := .next { s with mci := takeMessage s.mci }

/-- The meaning of MESSAGE_ABANDONED. -/
def execMessageAbandoned (s : State) : Host.Outcome State Fault Refusal := .next { s with mci := takeAbandoned s.mci }

/-- The meaning of ORDER_TAKEN. -/
def execOrderTaken (s : State) : Host.Outcome State Fault Refusal := .next { s with mci := takeNextOrder s.mci }

/-- The meaning of OWED_REFUSAL. -/
def execOwedRefusal (s : State) : Host.Outcome State Fault Refusal := .next { s with mci := moveOwed s.mci }

/-- The state in which an outbound byte place is chosen: what comes about at once has been taken, and a RESET order
that is due has been carried out (R175; log entries 4 and 9). -/
def beforeLane (s : State) : State := catchUp (resetFirst (catchUp s))

/-- A reply started in a free byte place, if there are both (R167). -/
def startReply (s : State) : State :=
  let t := beforeLane s
  if laneFree t then
    match nextReply t.mci with
    | some body => sendReply body t
    | none => s
  else s

/-- A report started in a free byte place, if there are both (R147, R167). -/
def startReport (s : State) : State :=
  let t := beforeLane s
  if laneFree t then
    match nextReport t with
    | some src => sendReport src t
    | none => s
  else s

/-- A report can start. -/
def reportDue (s : State) : Bool := laneFree (beforeLane s) && (nextReport (beforeLane s)).isSome

/-- The meaning of REPLY_START. -/
def execReplyStart (s : State) : Host.Outcome State Fault Refusal := .next (startReply s)

/-- The meaning of REPORT_START: the KEYSW line is read as the report starts (R141, R150). -/
def execReportStart (keysw : Bool) (s : State) : Host.Outcome State Fault Refusal :=
  .next (if reportDue s then startReport { s with hwi := { s.hwi with keysw := keysw } } else s)

end Sys2Proof.Machine
end

