-- ==== Sys2Proof/Machine/OverrideOrders.lean ====
section
/-! DEFINITION. The orders on overrides: DECLARE MAYDAY, CLEAR MAYDAY, SOUND ALERT, CANCEL ALERT (chapter 6), LOAD TONE
and SET CADENCE (chapter 5). -/

namespace Sys2Proof.Machine

/-- The reply status of a DECLARE MAYDAY, by the case of R97 it meets (R98). -/
def maydayStatus : EmergencyCase → Status
  | .notMember => .state
  | .hasMayday => .state
  | .latchFull => .state
  | .latched _ => .accepted
  | .begins _ => .done

/-- DECLARE MAYDAY (R98). -/
def orderDeclareMayday (body : List Byte) (c : Settings) (l : Live) : OrderResult :=
  if body.length ≠ 1 then refuse .malformed c l
  else match readPortNumber (byteAt body 0) with
    | none => refuse .range c l
    | some p =>
      let st := maydayStatus (emergencyCase c l p)
      if st = .state then refuse .state c l
      else { cfg := c, live := closeEvent c (emergencyEvent c p l), status := st, data := [] }

/-- CLEAR MAYDAY (R102). -/
def orderClearMayday (body : List Byte) (c : Settings) (l : Live) : OrderResult :=
  if body.length ≠ 1 then refuse .malformed c l
  else match readPatchNumber (byteAt body 0) with
    | none => refuse .range c l
    | some q =>
      if underAlert l q then refuse .nested c l
      else match (look l.ovr q).mayday with
        | none => refuse .state c l
        | some p => { cfg := c, live := closeEvent c (endMayday c q p l), status := .done, data := [] }

/-- The duration of a SOUND ALERT as stored, in seconds (R111). -/
def alertSeconds (carried : Nat) : Nat := min carried 600

/-- The patches of a set that a SOUND ALERT alerts: those not under alert already (R111). -/
def newlyAlerted (l : Live) (qs : List Patch) : List Patch := qs.filter (fun q => !underAlert l q)

/-- The alerts of one SOUND ALERT begin: a pending switch that involves one of the patches is aborted first, once
(R111, R128). -/
def beginAlerts (c : Settings) (seconds : Nat) (qs : List Patch) (l : Live) : Live :=
  let l := if qs.any (fun q => (look l.fla q).freezing) then abort c .alert l else l
  qs.foldl (beginAlert c seconds) l

/-- SOUND ALERT (R111). -/
def orderSoundAlert (body : List Byte) (c : Settings) (l : Live) : OrderResult :=
  if body.length ≠ 3 then refuse .malformed c l
  else
    let qs := readPatchSet (body.getD 0 0)
    if qs.any (fun q => !(activeRecord c l q).valid) then refuse .state c l
    else
      { cfg := c
        live := closeEvent c (beginAlerts c (alertSeconds (wordAt body 1)) (newlyAlerted l qs) l)
        status := doneOr (600 < wordAt body 1)
        data := [] }

/-- CANCEL ALERT (R115). -/
def orderCancelAlert (body : List Byte) (c : Settings) (l : Live) : OrderResult :=
  if body.length ≠ 1 then refuse .malformed c l
  else
    { cfg := c
      live := closeEvent c (((readPatchSet (body.getD 0 0)).filter (underAlert l)).foldl (endAlert c) l)
      status := .done
      data := [] }

/-- A LOAD TONE body carries a start index and a whole number of samples from 1 to 28 (R89, R177). -/
def toneBodyFits (body : List Byte) : Bool := 4 ≤ body.length && body.length ≤ 58 && body.length % 2 = 0

/-- LOAD TONE (R89). -/
def orderLoadTone (body : List Byte) (c : Settings) (l : Live) : OrderResult :=
  if !toneBodyFits body then refuse .malformed c l
  else if Config.toneSize ≤ wordAt body 0 then refuse .range c l
  else
    { cfg := { c with tone := Memory.load Config.toneSize c.tone (wordAt body 0) (readSamples (body.drop 2)) }
      live := l
      status := .done
      data := [] }

/-- The cadence settings of a SET CADENCE body as stored: on and off times at most 5000 ms (R90). -/
def storedCadence (body : List Byte) : CadenceSettings :=
  { loopLength := wordAt body 0
    onMs := min (wordAt body 2) 5000
    offMs := min (wordAt body 4) 5000
    toneGain := body.getD 6 0
    voiceGain := body.getD 7 0 }

/-- The loop length of a SET CADENCE body is out of range (R90). -/
def badLoopLength (n : Nat) : Bool := n = 0 || Config.toneSize < n

/-- SET CADENCE (R90, R93). -/
def orderSetCadence (body : List Byte) (c : Settings) (l : Live) : OrderResult :=
  if body.length ≠ 8 then refuse .malformed c l
  else if badLoopLength (wordAt body 0) then refuse .range c l
  else
    let stored := storedCadence body
    { cfg := { c with cadence := stored }
      live := { l with gen := cadenceChanged stored l.gen }
      status := doneOr (5000 < wordAt body 2 || 5000 < wordAt body 4)
      data := writeCadence stored }

/-- The meaning of DECLARE_MAYDAY. -/
def execDeclareMayday (body : List Byte) (s : State) : Host.Outcome State Fault Refusal :=
  .next (carryOut 0x40 body (orderDeclareMayday body) s)

/-- The meaning of CLEAR_MAYDAY. -/
def execClearMayday (body : List Byte) (s : State) : Host.Outcome State Fault Refusal :=
  .next (carryOut 0x41 body (orderClearMayday body) s)

/-- The meaning of SOUND_ALERT. -/
def execSoundAlert (body : List Byte) (s : State) : Host.Outcome State Fault Refusal :=
  .next (carryOut 0x42 body (orderSoundAlert body) s)

/-- The meaning of CANCEL_ALERT. -/
def execCancelAlert (body : List Byte) (s : State) : Host.Outcome State Fault Refusal :=
  .next (carryOut 0x43 body (orderCancelAlert body) s)

/-- The meaning of LOAD_TONE. -/
def execLoadTone (body : List Byte) (s : State) : Host.Outcome State Fault Refusal :=
  .next (carryOutAfterRing 0x48 body (orderLoadTone body) s)

/-- The meaning of SET_CADENCE. -/
def execSetCadence (body : List Byte) (s : State) : Host.Outcome State Fault Refusal :=
  .next (carryOutAfterRing 0x49 body (orderSetCadence body) s)

end Sys2Proof.Machine
end

