-- ==== Sys2Proof/Machine/PlanOrders.lean ====
section
/-! DEFINITION. The edit orders: DEFINE PATCH, SET MEMBER, DELETE PATCH, CLEAR BANK (chapter 1). -/

namespace Sys2Proof.Machine

/-! ### Checks -/

/-- A protected port stands in a lane of a record (R7, R133). -/
def protectedIn (c : Settings) (r : PatchRec) : Bool := anyProtected c (stands r)

/-- Two lanes of a record name the same port (R8). -/
def repeatsPort (r : PatchRec) : Bool :=
  allPorts.any (fun p => 1 < r.lanes.toList.countP (fun lane => lane.any (fun m => m.port = p)))

/-- A port stands in a lane of another valid patch of a bank (R8). -/
def elsewhereValid (c : Settings) (b : Bank) (q : Patch) (p : Port) : Bool :=
  allPatches.any (fun r => r ≠ q && (bankRecord c b r).valid && stands (bankRecord c b r) p)

/-- A record written at a patch position of a bank would break the first law of R4 (R8). -/
def defineConflicts (c : Settings) (b : Bank) (q : Patch) (r : PatchRec) : Bool :=
  repeatsPort r || (r.valid && allPorts.any (fun p => stands r p && elsewhereValid c b q p))

/-- A port stands in another lane of a record (R8). -/
def inOtherLane (r : PatchRec) (n : Lane) (p : Port) : Bool :=
  allLanes.any (fun k => k ≠ n && (look r.lanes k).any (fun m => m.port = p))

/-- A lane written would break the first law of R4; emptying never does (R8). -/
def memberConflicts (c : Settings) (b : Bank) (q : Patch) (n : Lane) (lane : Option MemberRec) : Bool :=
  match lane with
  | none => false
  | some m =>
    inOtherLane (bankRecord c b q) n m.port ||
      ((bankRecord c b q).valid && elsewhereValid c b q m.port)

/-! ### Live effects -/

/-- Ports in FAULT that stood in the deleted record and stand in the cleared one no more return to DORMANT (R12, R76). -/
def clearRemovedFaults (old new : PatchRec) (l : Live) : Live :=
  allPorts.foldl (fun l p => if stands old p && !stands new p then clearFault p l else l) l

/-- A port in FAULT that stands in a record no more returns to DORMANT, from where it keys by R67 if it is a member of
another valid patch whose writer is active. One that stood in an old record that was not valid, and stays a member of
another valid patch, leaves FAULT too: R10 has it so, where R76 would keep it there, and that the model follows R10 is its
own reading (log entry 37). -/
def freeRemoved (c : Settings) (old new : PatchRec) (l : Live) (p : Port) : Live :=
  if (look l.tx p).state = .fault && stands old p && !stands new p then settleKeys c (clearFault p l) else l

/-- The effects of a live DEFINE, the record being written in `c` (R10). The ports freed from FAULT stand in the new
record no more, so that it makes no difference to its arbitration that they are freed after it, each by itself: the
selection of each MIX patch in which one of them releases as it keys is so made again (R34, R48; log entry 16). -/
def liveDefine (c : Settings) (q : Patch) (old : PatchRec) (l : Live) : Live :=
  let new := activeRecord c l q
  let l := flushRing q (defaultFloor c l q)
  allPorts.foldl (freeRemoved c old new) (arbitrateFresh c l q)

/-- The effects of deleting a valid ACTIVE patch, the cleared record being written in `c` (R12). -/
def liveDelete (c : Settings) (q : Patch) (old : PatchRec) (l : Live) : Live :=
  let l := clearRemovedFaults old (activeRecord c l q) l
  flushRing q (defaultFloor c l q)

/-- What changes between the old and the new content of a lane (R15). -/
structure LaneChange where
  /-- The port of the old content loses its lane. -/
  removedWhole : Bool
  /-- The port of the old content loses LISTEN. -/
  removedListen : Bool
  /-- The port of the old content loses TALK. -/
  removedTalk : Bool
  /-- The port of the new content gains TALK. -/
  addedTalk : Bool
deriving DecidableEq, Repr

/-- The difference between two contents of a lane as removals and additions of rights (R15). -/
def laneChange (old new : Option MemberRec) : LaneChange :=
  match old, new with
  | none, none => { removedWhole := false, removedListen := false, removedTalk := false, addedTalk := false }
  | none, some n => { removedWhole := false, removedListen := false, removedTalk := false, addedTalk := n.talk }
  | some m, none => { removedWhole := true, removedListen := m.listen, removedTalk := m.talk, addedTalk := false }
  | some m, some n =>
    if m.port = n.port then
      { removedWhole := false, removedListen := m.listen && !n.listen, removedTalk := m.talk && !n.talk,
        addedTalk := !m.talk && n.talk }
    else { removedWhole := true, removedListen := m.listen, removedTalk := m.talk, addedTalk := n.talk }

/-- A lane keeps its port and its rights: a change of fields only (R15, R18). -/
def fieldsOnly (old new : Option MemberRec) : Bool :=
  match old, new with
  | some m, some n => m.port = n.port && m.listen = n.listen && m.talk = n.talk
  | none, _ => false
  | some _, none => false

/-- A lane keeps its port and changes its rank. With a right changed in the same order this causes the order's
arbitration (R18). -/
def rankChanged (old new : Option MemberRec) : Bool :=
  match old, new with
  | some m, some n => m.port = n.port && m.rank ≠ n.rank
  | none, _ => false
  | some _, none => false

/-- LISTEN, or the port as a whole, removed from a patch: a reader of its ring is unkeyed, a port in FAULT returns to
DORMANT (R16, R73, R76). -/
def removeListener (c : Settings) (q : Patch) (p : Port) (l : Live) : Live :=
  clearFault p (if reads l p q then unkey c p l else l)

/-- The floor of a live edit's one arbitration: a free place is filled, and a new claimant preempts by strict rank
(R15, R46, R58). -/
def editedFloor (c : Settings) (l : Live) (q : Patch) (left : List Port) (new : Option Port) : List Port :=
  match new with
  | some p => claimedFloor c l q left p
  | none => refilledFloor c l q left

/-- The port whose added TALK right makes it a claimant (R17). -/
def newClaimant (l : Live) (ch : LaneChange) (new : Option MemberRec) : Option Port :=
  match new with
  | some n => if ch.addedTalk && rxActive l n.port then some n.port else none
  | none => none

/-- The claimants and the floor that is left when a lane's old port loses TALK (R16). -/
def withoutTalker (ch : LaneChange) (old : Option MemberRec) (ps : List Port) : List Port :=
  match old with
  | some m => if ch.removedTalk then dropPort m.port ps else ps
  | none => ps

/-- The effects of a live SET MEMBER that adds or removes rights, the lane being written in `c`: removals, the added
claimant, one arbitration if a place was freed, a claimant added or the rank changed too, and then the keying of an added
listener (R15 to R18, R58). R15 and the second point of R58 do not name the changed rank; R18 and the third point of R58
do, and the model follows them (log entry 30). -/
def editRights (c : Settings) (q : Patch) (old new : Option MemberRec) (l : Live) : Live :=
  let ch := laneChange old new
  let l := match old with
    | some m => if ch.removedWhole || ch.removedListen then removeListener c q m.port l else l
    | none => l
  let floor := (ctxOf l q).floor
  let left := withoutTalker ch old floor
  let fresh := newClaimant l ch new
  let claimants := withoutTalker ch old (claimantsOf l q)
  let claimants := match fresh with
    | some p => addPort p claimants
    | none => claimants
  let l := l.setClaimants q claimants
  if left ≠ floor || fresh.isSome || rankChanged old new then installFloor c q (editedFloor c l q left fresh) l
  else settleKeys c l

/-- The effects of a live SET MEMBER, the lane being written in `c`: a change of fields only disturbs nothing (R15,
R18). -/
def liveEdit (c : Settings) (q : Patch) (old new : Option MemberRec) (l : Live) : Live :=
  if fieldsOnly old new then l else editRights c q old new l

/-! ### The orders -/

/-- An edit concerns the ACTIVE bank (R6, R7). -/
def isActiveSel (sel : BankSel) : Bool := sel = .active

/-- DEFINE PATCH (R10). -/
def orderDefinePatch (body : List Byte) (c : Settings) (l : Live) : OrderResult :=
  if body.length ≠ 51 then refuse .malformed c l
  else match readBank (byteAt body 0), readPatchNumber (byteAt body 1), readRecord body 2 with
    | some sel, some q, some carried =>
      let b := resolveBank l sel
      let old := bankRecord c b q
      let new := (storeRecord carried).1
      match firstRefusal
        [(switchPending l, .pending),
         (isActiveSel sel && (protectedIn c old || protectedIn c new), .protectedPort),
         (isActiveSel sel && !idle c l q, .busy),
         (defineConflicts c b q new, .conflict)] with
      | some st => refuse st c l
      | none =>
        let c' := c.setRecord b q new
        { cfg := c'
          live := if isActiveSel sel then closeEvent c' (liveDefine c' q old l) else l
          status := doneOr (storeRecord carried).2
          data := [] }
    | _, _, _ => refuse .range c l

/-- SET MEMBER (R11). -/
def orderSetMember (body : List Byte) (c : Settings) (l : Live) : OrderResult :=
  if body.length ≠ 9 then refuse .malformed c l
  else match readBank (byteAt body 0), readPatchNumber (byteAt body 1), readLane (byteAt body 2),
      readMember body 3 with
    | some sel, some q, some n, some carried =>
      let b := resolveBank l sel
      let rec0 := bankRecord c b q
      let old := look rec0.lanes n
      let new := (storeLane carried).1
      match firstRefusal
        [(switchPending l, .pending),
         (isActiveSel sel && (protectedIn c rec0 || new.any (fun m => look c.flags m.port)), .protectedPort),
         (isActiveSel sel && overridden l q, .override),
         (memberConflicts c b q n new, .conflict)] with
      | some st => refuse st c l
      | none =>
        let c' := c.setRecord b q { rec0 with lanes := put rec0.lanes n new }
        { cfg := c'
          live := if isActiveSel sel && rec0.valid && old ≠ new then closeEvent c' (liveEdit c' q old new l) else l
          status := doneOr (storeLane carried).2
          data := writeMember new }
    | _, _, _, _ => refuse .range c l

/-- DELETE PATCH (R12). -/
def orderDeletePatch (body : List Byte) (c : Settings) (l : Live) : OrderResult :=
  if body.length ≠ 2 then refuse .malformed c l
  else match readBank (byteAt body 0), readPatchNumber (byteAt body 1) with
    | some sel, some q =>
      let b := resolveBank l sel
      let old := bankRecord c b q
      match firstRefusal
        [(switchPending l, .pending),
         (isActiveSel sel && protectedIn c old, .protectedPort),
         (isActiveSel sel && !idle c l q, .busy)] with
      | some st => refuse st c l
      | none =>
        let c' := c.setRecord b q PatchRec.cleared
        { cfg := c'
          live := if isActiveSel sel && old.valid then closeEvent c' (liveDelete c' q old l)
            else if isActiveSel sel then defaultFloor c' l q
            else l
          status := .done
          data := [] }
    | _, _ => refuse .range c l

/-- The settings with every record of a bank in the cleared form (R13). -/
def Settings.clearBank (c : Settings) (b : Bank) : Settings :=
  { c with banks := put c.banks b (Vector.replicate 8 PatchRec.cleared) }

/-- The effects of clearing the ACTIVE bank on one patch, `old` being the settings before (R12, R13). -/
def clearPatch (old c : Settings) (l : Live) (q : Patch) : Live :=
  if (activeRecord old l q).valid then liveDelete c q (activeRecord old l q) l else defaultFloor c l q

/-- CLEAR BANK (R13). -/
def orderClearBank (body : List Byte) (c : Settings) (l : Live) : OrderResult :=
  if body.length ≠ 1 then refuse .malformed c l
  else match readBank (byteAt body 0) with
    | some sel =>
      match firstRefusal
        [(switchPending l, .pending),
         (isActiveSel sel && allPatches.any (fun q => protectedIn c (activeRecord c l q)), .protectedPort),
         (isActiveSel sel && !allPatches.all (idle c l), .busy)] with
      | some st => refuse st c l
      | none =>
        let c' := c.clearBank (resolveBank l sel)
        { cfg := c'
          live := if isActiveSel sel then closeEvent c' (allPatches.foldl (clearPatch c c') l) else l
          status := .done
          data := [] }
    | none => refuse .range c l

/-- The meaning of DEFINE_PATCH. -/
def execDefinePatch (body : List Byte) (s : State) : Host.Outcome State Fault Refusal :=
  .next (carryOutAfterRing 0x21 body (orderDefinePatch body) s)

/-- The meaning of SET_MEMBER. -/
def execSetMember (body : List Byte) (s : State) : Host.Outcome State Fault Refusal :=
  .next (carryOutAfterRing 0x22 body (orderSetMember body) s)

/-- The meaning of DELETE_PATCH. -/
def execDeletePatch (body : List Byte) (s : State) : Host.Outcome State Fault Refusal :=
  .next (carryOut 0x23 body (orderDeletePatch body) s)

/-- The meaning of CLEAR_BANK. -/
def execClearBank (body : List Byte) (s : State) : Host.Outcome State Fault Refusal :=
  .next (carryOut 0x24 body (orderClearBank body) s)

end Sys2Proof.Machine
end

