-- ==== Sys2Proof/Machine/PortOrders.lean ====
section
/-! DEFINITION. The orders on ports: SET PORT and CLEAR PORT (chapter 2). -/

namespace Sys2Proof.Machine

/-- The live effects of a changed port record: COR ignoring begins or ends on a keyed port (R25, R34, R35). `was` says
whether the port's COR was ignored under the old record; `c` holds the new one. -/
def portRecordChanged (c : Settings) (p : Port) (was : Bool) (l : Live) : Live :=
  if corIgnored c l p then (if was then l else beginIgnoring c p l)
  else (if was then startFreshCor p l else l)

/-- SET PORT (R24, R25). -/
def orderSetPort (body : List Byte) (c : Settings) (l : Live) : OrderResult :=
  if body.length ≠ 12 then refuse .malformed c l
  else match readPortNumber (byteAt body 0), readPortRecord body 1 with
    | some p, some r =>
      let stored := storePort p r
      let c' := { c with ports := put c.ports p stored }
      { cfg := c'
        live := closeEvent c' (portRecordChanged c' p (corIgnored c l p) l)
        status := doneOr (stored ≠ r)
        data := writePortRecord stored }
    | _, _ => refuse .range c l

/-- The effects of CLEAR PORT on both machines of a port (R39, R76). A port in FAULT goes to DORMANT and keys by R67 at
once; the lockout is lifted after that, so that where the port has keyed with its COR ignored "the fresh debounce then
waits for the ignoring to end" (R39, R35). -/
def clearPort (c : Settings) (p : Port) (l : Live) : Live :=
  liftLockout c p (if (look l.tx p).state = .fault then settleKeys c (clearFault p l) else l)

/-- CLEAR PORT (R39). -/
def orderClearPort (body : List Byte) (c : Settings) (l : Live) : OrderResult :=
  if body.length ≠ 1 then refuse .malformed c l
  else match readPortNumber (byteAt body 0) with
    | none => refuse .range c l
    | some p => { cfg := c, live := closeEvent c (clearPort c p l), status := .done, data := [] }

/-- The meaning of SET_PORT. -/
def execSetPort (body : List Byte) (s : State) : Host.Outcome State Fault Refusal :=
  .next (carryOut 0x11 body (orderSetPort body) s)

/-- The meaning of CLEAR_PORT. -/
def execClearPort (body : List Byte) (s : State) : Host.Outcome State Fault Refusal :=
  .next (carryOut 0x12 body (orderClearPort body) s)

end Sys2Proof.Machine
end

