-- ==== Sys2Proof/Machine/ProtectionOrders.lean ====
section
/-! DEFINITION. The orders on protection: the six operations of SET PROTECTION, a SET PROTECTION that names none of
them, and READ PROTECTION (chapter 8). -/

namespace Sys2Proof.Machine

/-- The data of a protection reply: the flags, PLK, and the KEYSW level read for the order (R139, R140). -/
def protectionData (c : Settings) (keysw : Bool) : List Byte :=
  portSetBytes c.flags ++ [boolByte c.plk, boolByte keysw]

/-- A SET PROTECTION that has passed its checks: the new settings, answered with the state after it (R137 to R139). -/
def protectionDone (c' : Settings) (l : Live) (keysw : Bool) : OrderResult :=
  { cfg := c', live := l, status := .done, data := protectionData c' keysw }

/-- A flag operation: RANGE where its port set is read and names a port above 17, PENDING, LOCKED while PLK is 1, else
every flag as `f` gives it (R135 to R137). -/
def flagOperation (tooHigh : Bool) (f : Port → Bool → Bool) (c : Settings) (l : Live) (keysw : Bool) : OrderResult :=
  match firstRefusal [(tooHigh, .range), (switchPending l, .pending), (c.plk, .locked)] with
  | some st => refuse st c l
  | none => protectionDone { c with flags := mapTable f c.flags } l keysw

/-- A lock operation: PENDING, LOCKED where `hard` says so, else PLK as given (R135, R136, R138). -/
def lockOperation (hard : Bool) (plk : Bool) (c : Settings) (l : Live) (keysw : Bool) : OrderResult :=
  match firstRefusal [(switchPending l, .pending), (hard, .locked)] with
  | some st => refuse st c l
  | none => protectionDone { c with plk := plk } l keysw

/-- PROTECT (R137). -/
def orderProtect (body : List Byte) (c : Settings) (l : Live) (keysw : Bool) : OrderResult :=
  flagOperation (portSetTooHigh body 1) (fun p old => inPortSet body 1 p || old) c l keysw

/-- UNPROTECT (R137). -/
def orderUnprotect (body : List Byte) (c : Settings) (l : Live) (keysw : Bool) : OrderResult :=
  flagOperation (portSetTooHigh body 1) (fun p old => !inPortSet body 1 p && old) c l keysw

/-- PROTECT ALL (R137): the port set is not read. -/
def orderProtectAll (c : Settings) (l : Live) (keysw : Bool) : OrderResult :=
  flagOperation false (fun _ _ => true) c l keysw

/-- UNPROTECT ALL (R137): the port set is not read. -/
def orderUnprotectAll (c : Settings) (l : Live) (keysw : Bool) : OrderResult :=
  flagOperation false (fun _ _ => false) c l keysw

/-- SET LOCK (R138): carried out at either key level. -/
def orderSetLock (c : Settings) (l : Live) (keysw : Bool) : OrderResult := lockOperation false true c l keysw

/-- CLEAR LOCK (R138): refused under hard lock. -/
def orderClearLock (c : Settings) (l : Live) (keysw : Bool) : OrderResult :=
  lockOperation (c.plk && keysw) false c l keysw

/-- A SET PROTECTION with a bad length, or a selector that is none of the six operations (R135). -/
def orderBadProtection (body : List Byte) (c : Settings) (l : Live) (_keysw : Bool) : OrderResult :=
  if body.length ≠ 4 then refuse .malformed c l else refuse .range c l

/-- READ PROTECTION (R140). -/
def orderReadProtection (body : List Byte) (c : Settings) (l : Live) (keysw : Bool) : OrderResult :=
  if body.length ≠ 0 then refuse .malformed c l else answer c l (protectionData c keysw)

/-- A body that spells one of the six operations (R135). -/
def anyOperation (body : List Byte) : Bool :=
  [0x01, 0x02, 0x03, 0x04, 0x05, 0x06].any (fun op => isOperation op body)

/-- A SET PROTECTION carried out as operation `op`; nothing where the body does not spell that operation. -/
def carryOperation (op : Byte) (body : List Byte) (keysw : Bool) (f : Settings → Live → Bool → OrderResult)
    (s : State) : State :=
  if isOperation op body then carryOutWithKey 0x50 body keysw f s else s

/-- The meaning of PROTECT. -/
def execProtect (body : List Byte) (keysw : Bool) (s : State) : Host.Outcome State Fault Refusal :=
  .next (carryOperation 0x01 body keysw (orderProtect body) s)

/-- The meaning of UNPROTECT. -/
def execUnprotect (body : List Byte) (keysw : Bool) (s : State) : Host.Outcome State Fault Refusal :=
  .next (carryOperation 0x02 body keysw (orderUnprotect body) s)

/-- The meaning of PROTECT_ALL. -/
def execProtectAll (body : List Byte) (keysw : Bool) (s : State) : Host.Outcome State Fault Refusal :=
  .next (carryOperation 0x03 body keysw orderProtectAll s)

/-- The meaning of UNPROTECT_ALL. -/
def execUnprotectAll (body : List Byte) (keysw : Bool) (s : State) : Host.Outcome State Fault Refusal :=
  .next (carryOperation 0x04 body keysw orderUnprotectAll s)

/-- The meaning of SET_LOCK. -/
def execSetLock (body : List Byte) (keysw : Bool) (s : State) : Host.Outcome State Fault Refusal :=
  .next (carryOperation 0x05 body keysw orderSetLock s)

/-- The meaning of CLEAR_LOCK. -/
def execClearLock (body : List Byte) (keysw : Bool) (s : State) : Host.Outcome State Fault Refusal :=
  .next (carryOperation 0x06 body keysw orderClearLock s)

/-- The meaning of SET_PROTECTION: nothing where the body spells an operation. -/
def execSetProtection (body : List Byte) (keysw : Bool) (s : State) : Host.Outcome State Fault Refusal :=
  .next (if anyOperation body then s else carryOutWithKey 0x50 body keysw (orderBadProtection body) s)

/-- The meaning of READ_PROTECTION. -/
def execReadProtection (body : List Byte) (keysw : Bool) (s : State) : Host.Outcome State Fault Refusal :=
  .next (carryOutWithKey 0x51 body keysw (orderReadProtection body) s)

end Sys2Proof.Machine
end

