-- ==== Sys2Proof/Machine/Queries.lean ====
section
/-! DEFINITION. The orders that read: IDENTIFY, READ PORT, READ PATCH, READ RING, READ CONDITIONS; and the refusal of
an unknown order. -/

namespace Sys2Proof.Machine

/-- IDENTIFY (R169). -/
def orderIdentify (body : List Byte) (c : Settings) (l : Live) : OrderResult :=
  if body.length ≠ 0 then refuse .malformed c l
  else answer c l (twoBytes Config.vendorCode ++ [natByte Config.partCode, natByte Config.revisionCode])

/-- READ PORT (R40): a console port has no EMG, so its EMG level is LOW. -/
def orderReadPort (body : List Byte) (c : Settings) (l : Live) : OrderResult :=
  if body.length ≠ 1 then refuse .malformed c l
  else match readPortNumber (byteAt body 0) with
    | none => refuse .range c l
    | some p =>
      answer c l ([natByte p.val, boolByte (isConsole p)] ++ writePortRecord (look c.ports p) ++
        [rxByte (look l.rx p).rx, boolByte (look l.rx p).cor.level,
         boolByte (!isConsole p && (look l.rx p).emg.level), txByte (look l.tx p).state])

/-- READ PATCH (R14). -/
def orderReadPatch (body : List Byte) (c : Settings) (l : Live) : OrderResult :=
  if body.length ≠ 2 then refuse .malformed c l
  else match readBank (byteAt body 0), readPatchNumber (byteAt body 1) with
    | some sel, some q =>
      answer c l ([bankByte sel, natByte q.val] ++ writeRecord (bankRecord c (resolveBank l sel) q))
    | _, _ => refuse .range c l

/-- A reader's entry in a READ RING reply: port, transmit state with bit 7 set for a guest, lag (R79, R177). -/
def readerEntry (l : Live) (q : Patch) (p : Port) : List Byte :=
  [natByte p.val, txByte (look l.tx p).state ||| (if guestOf l p q then 0x80 else 0)] ++ twoBytes (lagOf l p)

/-- READ RING (R79). -/
def orderReadRing (body : List Byte) (c : Settings) (l : Live) : OrderResult :=
  if body.length ≠ 1 then refuse .malformed c l
  else match readPatchNumber (byteAt body 0) with
    | none => refuse .range c l
    | some q =>
      answer c l ([natByte q.val, boolByte (writerActive l q)] ++ twoBytes (look l.rings q).head.toNat ++
        [natByte (readersOf l q).length] ++ (readersOf l q).flatMap (readerEntry l q))

/-- READ CONDITIONS (R153). -/
def orderReadConditions (body : List Byte) (c : Settings) (l : Live) : OrderResult :=
  if body.length ≠ 1 then refuse .malformed c l
  else match readSource (byteAt body 0) with
    | none => refuse .range c l
    | some src =>
      answer c l [natByte src.val, look l.exc src, look l.acc src, look c.masks src, boolByte (l.queue.contains src)]

/-- An order whose kind names none of the 24 orders (R166). -/
def orderUnknown (c : Settings) (l : Live) : OrderResult := refuse .unknown c l

/-- The meaning of IDENTIFY. -/
def execIdentify (body : List Byte) (s : State) : Host.Outcome State Fault Refusal :=
  .next (carryOut 0x01 body (orderIdentify body) s)

/-- The meaning of READ_PORT. -/
def execReadPort (body : List Byte) (s : State) : Host.Outcome State Fault Refusal :=
  .next (carryOut 0x10 body (orderReadPort body) s)

/-- The meaning of READ_PATCH. -/
def execReadPatch (body : List Byte) (s : State) : Host.Outcome State Fault Refusal :=
  .next (carryOut 0x20 body (orderReadPatch body) s)

/-- The meaning of READ_RING. -/
def execReadRing (body : List Byte) (s : State) : Host.Outcome State Fault Refusal :=
  .next (carryOut 0x70 body (orderReadRing body) s)

/-- The meaning of READ_CONDITIONS. -/
def execReadConditions (body : List Byte) (s : State) : Host.Outcome State Fault Refusal :=
  .next (carryOut 0x61 body (orderReadConditions body) s)

/-- The meaning of UNKNOWN_ORDER: nothing where the kind names an order. -/
def execUnknownOrder (kind : Byte) (body : List Byte) (s : State) : Host.Outcome State Fault Refusal :=
  .next (if orderKinds.contains kind then s else carryOut kind body orderUnknown s)

end Sys2Proof.Machine
end

