-- ==== Sys2Proof/Machine/ReportOrders.lean ====
section
/-! DEFINITION. The orders on reports that write: SET REPORT MASK and CLEAR CONDITIONS (chapter 9). -/

namespace Sys2Proof.Machine

/-- SET REPORT MASK (R151): the mask bits of the source's class as carried, the others not read. -/
def orderSetReportMask (body : List Byte) (c : Settings) (l : Live) : OrderResult :=
  if body.length ≠ 2 then refuse .malformed c l
  else match readSource (byteAt body 0) with
    | none => refuse .range c l
    | some src =>
      let mask := body.getD 1 0 &&& classMask (sourceClass src)
      { cfg := { c with masks := put c.masks src mask }, live := l, status := .done, data := [mask] }

/-- The conditions of a source cleared: EXC and ACC emptied, and the source out of the report queue (R154). -/
def clearSource (src : Source) (l : Live) : Live :=
  { l with
    exc := put l.exc src 0
    acc := put l.acc src 0
    queue := l.queue.filter (fun x => x ≠ src) }

/-- CLEAR CONDITIONS (R154). -/
def orderClearConditions (body : List Byte) (c : Settings) (l : Live) : OrderResult :=
  if body.length ≠ 1 then refuse .malformed c l
  else match readSource (byteAt body 0) with
    | none => refuse .range c l
    | some src => { cfg := c, live := clearSource src l, status := .done, data := [] }

/-- The meaning of SET_REPORT_MASK. -/
def execSetReportMask (body : List Byte) (s : State) : Host.Outcome State Fault Refusal :=
  .next (carryOut 0x60 body (orderSetReportMask body) s)

/-- The meaning of CLEAR_CONDITIONS. -/
def execClearConditions (body : List Byte) (s : State) : Host.Outcome State Fault Refusal :=
  .next (carryOut 0x62 body (orderClearConditions body) s)

end Sys2Proof.Machine
end

