-- ==== Sys2Proof/Machine/SwitchOrders.lean ====
section
/-! DEFINITION. The orders on the plan switch: SWITCH PLAN and ABORT SWITCH (chapter 7). -/

namespace Sys2Proof.Machine

/-- The grace time of a SWITCH PLAN as stored, in seconds (R120). -/
def graceOf (carried : Nat) : Nat := min carried 30

/-- The live state after a SWITCH PLAN that passed its checks, by the first case of R121 that applies. The first two
cases, an empty involved set and an involved set that is idle throughout, do the same. -/
def startSwitch (c : Settings) (grace : Nat) (l : Live) : Live :=
  let involved := involvedSet c l
  if involved.all (idle c l) then closeEvent c (swap c involved .done l)
  else if grace = 0 then closeEvent c (force c involved l)
  else setPending involved grace l

/-- The success status of a SWITCH PLAN, from the switch state it leaves (R121). -/
def switchStatus (clamped : Bool) (after : Live) : Status :=
  if clamped then .clamped else if switchPending after then .accepted else .done

/-- SWITCH PLAN (R120, R121). -/
def orderSwitchPlan (body : List Byte) (c : Settings) (l : Live) : OrderResult :=
  if body.length ≠ 1 then refuse .malformed c l
  else
    let involved := involvedSet c l
    match firstRefusal
      [(switchPending l, .pending),
       (anyProtected c (affected c involved), .protectedPort),
       (involved.any (overridden l), .override)] with
    | some st => refuse st c l
    | none =>
      let after := startSwitch c (graceOf (byteAt body 0)) l
      { cfg := c
        live := after
        status := switchStatus (30 < byteAt body 0) after
        data := [patchSetByte involved, switchByte after.switch.state] }

/-- ABORT SWITCH (R127). -/
def orderAbortSwitch (body : List Byte) (c : Settings) (l : Live) : OrderResult :=
  if body.length ≠ 0 then refuse .malformed c l
  else if switchPending l then
    { cfg := c, live := closeEvent c (abort c .order l), status := .done, data := [] }
  else refuse .state c l

/-- The meaning of SWITCH_PLAN. -/
def execSwitchPlan (body : List Byte) (s : State) : Host.Outcome State Fault Refusal :=
  .next (carryOut 0x30 body (orderSwitchPlan body) s)

/-- The meaning of ABORT_SWITCH. -/
def execAbortSwitch (body : List Byte) (s : State) : Host.Outcome State Fault Refusal :=
  .next (carryOut 0x31 body (orderAbortSwitch body) s)

end Sys2Proof.Machine
end

