-- ==== Sys2Proof/Machine/Frames.lean ====
section
/-! DEFINITION. The highway frame (R172 to R175): the arrival with its counts and its work, the pulses, and the forming
of the outbound slots. -/

namespace Sys2Proof.Machine

/-! ### The counts of an arrival -/

/-- The frames a bit must keep its value to settle: 8 × d, and one frame for d = 0 (R27, R28). -/
def settleFrames (ms : Nat) : Nat := max 1 (Config.framesPerMs * ms)

/-- A count of equal raw levels gone on by one frame; a settlement is due where it is complete (R27, R28). -/
def Debounce.counted (need : Nat) (raw : Bool) (n : Nat) (d : Debounce) : Debounce :=
  { d with count := n, due := if need ≤ n then some raw else none }

/-- A debounce takes the raw level of a frame, by R28 in a fresh debounce and by R27 otherwise. -/
def Debounce.tick (need : Nat) (raw : Bool) (d : Debounce) : Debounce :=
  if d.fresh then
    Debounce.counted need raw (if raw = d.run then d.count + 1 else 1) { d with run := raw }
  else if raw = d.level then { d with count := 0, due := none }
  else Debounce.counted need raw (d.count + 1) d

/-- The receive side of a port takes a frame: talk-time count, COR, and EMG on a radio port (R27, R32, R37). -/
def tickRx (c : Settings) (hdi : Vector Byte 45) (p : Port) (r : RxPort) : RxPort :=
  let need := settleFrames (look c.ports p).debounce
  { r with
    talk := countDown r.talk
    cor := r.cor.tick need (rawCor hdi p)
    emg := if isConsole p then r.emg else r.emg.tick need (rawEmg hdi p) }

/-- The timers of a transmit machine take a frame: KCF seen confirms the keying and stops its timer (R68, R71, R74). -/
def tickTx (hdi : Vector Byte 45) (p : Port) (t : TxPort) : TxPort :=
  { t with
    keyUp := countDown t.keyUp
    hang := countDown t.hang
    confirm := if rawKcf hdi p then none else countDown t.confirm }

/-- The live state takes the counts of a frame (R27, R32, R68, R71, R74, R114, R123). -/
def tickLive (c : Settings) (hdi : Vector Byte 45) (l : Live) : Live :=
  { l with
    rx := mapTable (tickRx c hdi) l.rx
    tx := mapTable (tickTx hdi) l.tx
    ovr := mapTable (fun _ o => { o with timer := o.timer.countDown }) l.ovr
    switch := { l.switch with grace := countDown l.switch.grace } }

/-! ### The work of an arrival -/

/-- The order the ORU holds becomes due at the first arrival after its taking (R163). -/
def Channel.orderDue (m : Channel) : Channel := { m with oru := m.oru.map (fun o => { o with due := true }) }

/-- A frame arrives: its inbound values are taken, every count moves, its work becomes due, and a message being sent
goes on in the next frame's byte places (R167, R172, R173). -/
def openFrame (hdi : Vector Byte 45) (keysw : Bool) (s : State) : State :=
  continueMessage
    { s with
      live := tickLive s.cfg hdi s.live
      mci := { s.mci.orderDue with inBytes := inboundLanes hdi }
      hwi := { s.hwi with
        phase := .arrived
        period := Config.arrivalPeriod
        received := Vector.ofFn (receivedSample hdi)
        ringDue := true
        formDue := true
        lanes := []
        keysw := keysw } }

/-- A SET PROTECTION carried out as the operation its body spells (R135). -/
def carryProtection (body : List Byte) (s : State) : State :=
  let k := s.hwi.keysw
  if isOperation 0x01 body then carryOutWithKey 0x50 body k (orderProtect body) s
  else if isOperation 0x02 body then carryOutWithKey 0x50 body k (orderUnprotect body) s
  else if isOperation 0x03 body then carryOutWithKey 0x50 body k orderProtectAll s
  else if isOperation 0x04 body then carryOutWithKey 0x50 body k orderUnprotectAll s
  else if isOperation 0x05 body then carryOutWithKey 0x50 body k orderSetLock s
  else if isOperation 0x06 body then carryOutWithKey 0x50 body k orderClearLock s
  else carryOutWithKey 0x50 body k (orderBadProtection body) s

/-- An order carried out by its kind (R177), as its own command does it. -/
def carryByKind (kind : Byte) (body : List Byte) (s : State) : State :=
  match kind.toNat with
  | 0x01 => carryOut 0x01 body (orderIdentify body) s
  | 0x02 => carryReset body s
  | 0x10 => carryOut 0x10 body (orderReadPort body) s
  | 0x11 => carryOut 0x11 body (orderSetPort body) s
  | 0x12 => carryOut 0x12 body (orderClearPort body) s
  | 0x20 => carryOut 0x20 body (orderReadPatch body) s
  | 0x21 => carryOutAfterRing 0x21 body (orderDefinePatch body) s
  | 0x22 => carryOutAfterRing 0x22 body (orderSetMember body) s
  | 0x23 => carryOut 0x23 body (orderDeletePatch body) s
  | 0x24 => carryOut 0x24 body (orderClearBank body) s
  | 0x30 => carryOut 0x30 body (orderSwitchPlan body) s
  | 0x31 => carryOut 0x31 body (orderAbortSwitch body) s
  | 0x40 => carryOut 0x40 body (orderDeclareMayday body) s
  | 0x41 => carryOut 0x41 body (orderClearMayday body) s
  | 0x42 => carryOut 0x42 body (orderSoundAlert body) s
  | 0x43 => carryOut 0x43 body (orderCancelAlert body) s
  | 0x48 => carryOutAfterRing 0x48 body (orderLoadTone body) s
  | 0x49 => carryOutAfterRing 0x49 body (orderSetCadence body) s
  | 0x50 => carryProtection body s
  | 0x51 => carryOutWithKey 0x51 body s.hwi.keysw (orderReadProtection body) s
  | 0x60 => carryOut 0x60 body (orderSetReportMask body) s
  | 0x61 => carryOut 0x61 body (orderReadConditions body) s
  | 0x62 => carryOut 0x62 body (orderClearConditions body) s
  | 0x70 => carryOut 0x70 body (orderReadRing body) s
  | _ => carryOut kind body orderUnknown s

/-- The order that is due carried out, if there is one (R163). -/
def carryHeld (s : State) : State :=
  match s.mci.oru with
  | some o => if o.due then carryByKind o.kind o.body s else s
  | none => s

/-- The next outbound byte place filled, if one is open: a message being sent goes on, else R167 chooses. -/
def fillLane (s : State) : State :=
  if laneOpen s then
    let t := beforeLane s
    if t.mci.out.isEmpty then chooseLane t else continueOnce t
  else s

/-- One item of a frame's work taken, if it is due. -/
def runTask (s : State) : FrameTask → State
  | .ring => finishRing s
  | .byte => takeByte s
  | .order => carryHeld s
  | .lane => fillLane s
  | .cor p => takeCor p s
  | .emg p => takeEmg p s
  | .talkTime p => takeTalkTime p s
  | .keyUp p => takeKeyUp p s
  | .hang p => takeHang p s
  | .keyConfirm p => takeKeyConfirm p s
  | .alert q => takeAlertTimer q s
  | .grace => takeGrace s
  | .graceFirst => { s with live := putGraceFirst s.live }

/-- The items of a frame's work in the order in which what is left of it is taken as the next pulse comes (log
entry 2). The inbound bytes go before the order held: they have come by the arrival at which it is carried out (R158,
R163; log entry 34). They also go before the byte places, so where the first frame after a power-on or RST reset carries
a kind and a length above 60, the MALFORMED reply is ready at once and goes out before the RESTART report, though R168
names that report as the first message out (R159, R162, R167; log entry 36). -/
def remainingTasks : List FrameTask :=
  allPorts.map .cor ++ allPorts.map .emg ++ allPorts.map .talkTime ++ allPorts.map .keyConfirm ++
    allPorts.map .hang ++ allPatches.map .alert ++ [.grace, .ring, .byte, .byte, .order, .lane, .lane]

/-- The work of a frame that no command has taken is completed (log entry 2). -/
def settleFrame (s : State) : State := catchUp (remainingTasks.foldl runTask s)

/-! ### Outbound slots -/

/-- The outbound slots of the next frame, from the state after this arrival (R173, R174). -/
def formedSlots (s : State) : Outbound :=
  { samples := mapTable (fun _ t => if t.state = .onAir then t.sample else 0) s.live.tx
    keys := mapTable (fun _ t => keyed t) s.live.tx
    lamps := s.live.lamps
    rtr := s.rtr
    lane0 := s.hwi.lanes.getD 0 0
    lane1 := s.hwi.lanes.getD 1 0 }

/-- The outbound slots formed, if a frame has arrived since they last were; else those of the frame before are driven
again (R173; log entries 7 and 8). -/
def formOutbound (s : State) : State :=
  if s.hwi.formDue then
    { s with hwi := { s.hwi with out := formedSlots s, formDue := false, lanes := [] } }
  else s

/-! ### Meanings -/

/-- Outbound timeslots that a whole frame drives (R174). -/
def drivenSlots : Nat := 44

/-- A new frame begun at an HFS pulse (R172). `driven`: the outbound timeslots driven of the frame before. -/
def beginFrame (driven : Nat) (s : State) : State :=
  { s with hwi := { s.hwi with phase := .running, period := 0, driven := driven } }

/-- A frame arrives while a reset is in progress: the part reads no inbound timeslot (R175). -/
def arriveInReset (s : State) : State :=
  { s with hwi := { s.hwi with phase := .arrived, period := Config.arrivalPeriod } }

/-- The frame in progress arrives and the listed work is taken (R172; log entry 2). -/
def arrive (hdi : Vector Byte 45) (keysw : Bool) (tasks : List FrameTask) (s : State) : State :=
  if s.hwi.inReset then arriveInReset s else tasks.foldl runTask (openFrame hdi keysw (catchUp s))

/-- The meaning of FRAME_ARRIVAL: nothing where no frame is in progress. -/
def execFrameArrival (hdi : Vector Byte 45) (keysw : Bool) (tasks : List FrameTask) (s : State) :
    Host.Outcome State Fault Refusal :=
  .next (if s.hwi.phase = .running then arrive hdi keysw tasks s else s)

/-- The meaning of EARLY_HFS_PULSE: the frame in progress is dropped and a new one begins; nothing where no frame is
in progress or it has arrived (R172). -/
def execEarlyHfsPulse (period : Nat) (s : State) : Host.Outcome State Fault Refusal :=
  .next
    (if s.hwi.phase = .running && period < Config.arrivalPeriod then beginFrame (min drivenSlots (period / 8)) s else s)

/-- The meaning of HFS_PULSE: a new frame begins with its outbound slots formed; nothing while a frame is in progress
(R172, R173). -/
def execHfsPulse (s : State) : Host.Outcome State Fault Refusal :=
  .next (match s.hwi.phase with
    | .arrived => beginFrame drivenSlots (formOutbound (settleFrame s))
    | .waiting => beginFrame s.hwi.driven (formOutbound (settleFrame s))
    | .running => s)

/-- The meaning of NO_PULSE_BY_PERIOD_512: the part waits for the next pulse; nothing where the frame in progress has
not arrived (R172). -/
def execNoPulseByPeriod512 (s : State) : Host.Outcome State Fault Refusal :=
  .next
    (if s.hwi.phase = .arrived then
      let t := settleFrame s
      { t with hwi := { t.hwi with phase := .waiting, period := Config.lastPeriod, driven := drivenSlots } }
    else s)

end Sys2Proof.Machine
end

