-- ==== Sys2Proof/Machine/Dispatch.lean ====
section
/-! DEFINITION. The meaning of every command: one arm per constructor of Instr, one direct call each. -/

namespace Sys2Proof.Machine

/-- A command's effect on everything but the queue. -/
def exec (i : Instr) (s : State) : Host.Outcome State Fault Refusal :=
  match i with
  | .powerOnReset rstHeld => Sys2Proof.Machine.execPowerOnReset rstHeld s
  | .rstReset => Sys2Proof.Machine.execRstReset s
  | .rstRelease => Sys2Proof.Machine.execRstRelease s
  | .frameArrival hdi keysw tasks => Sys2Proof.Machine.execFrameArrival hdi keysw tasks s
  | .earlyHfsPulse period => Sys2Proof.Machine.execEarlyHfsPulse period s
  | .messageComplete => Sys2Proof.Machine.execMessageComplete s
  | .messageAbandoned => Sys2Proof.Machine.execMessageAbandoned s
  | .orderTaken => Sys2Proof.Machine.execOrderTaken s
  | .owedRefusal => Sys2Proof.Machine.execOwedRefusal s
  | .replyStart => Sys2Proof.Machine.execReplyStart s
  | .reportStart keysw => Sys2Proof.Machine.execReportStart keysw s
  | .identify body => Sys2Proof.Machine.execIdentify body s
  | .readPort body => Sys2Proof.Machine.execReadPort body s
  | .setPort body => Sys2Proof.Machine.execSetPort body s
  | .clearPort body => Sys2Proof.Machine.execClearPort body s
  | .readPatch body => Sys2Proof.Machine.execReadPatch body s
  | .definePatch body => Sys2Proof.Machine.execDefinePatch body s
  | .setMember body => Sys2Proof.Machine.execSetMember body s
  | .deletePatch body => Sys2Proof.Machine.execDeletePatch body s
  | .clearBank body => Sys2Proof.Machine.execClearBank body s
  | .switchPlan body => Sys2Proof.Machine.execSwitchPlan body s
  | .abortSwitch body => Sys2Proof.Machine.execAbortSwitch body s
  | .declareMayday body => Sys2Proof.Machine.execDeclareMayday body s
  | .clearMayday body => Sys2Proof.Machine.execClearMayday body s
  | .soundAlert body => Sys2Proof.Machine.execSoundAlert body s
  | .cancelAlert body => Sys2Proof.Machine.execCancelAlert body s
  | .loadTone body => Sys2Proof.Machine.execLoadTone body s
  | .setCadence body => Sys2Proof.Machine.execSetCadence body s
  | .protect body keysw => Sys2Proof.Machine.execProtect body keysw s
  | .unprotect body keysw => Sys2Proof.Machine.execUnprotect body keysw s
  | .protectAll body keysw => Sys2Proof.Machine.execProtectAll body keysw s
  | .unprotectAll body keysw => Sys2Proof.Machine.execUnprotectAll body keysw s
  | .setLock body keysw => Sys2Proof.Machine.execSetLock body keysw s
  | .clearLock body keysw => Sys2Proof.Machine.execClearLock body keysw s
  | .readProtection body keysw => Sys2Proof.Machine.execReadProtection body keysw s
  | .setReportMask body => Sys2Proof.Machine.execSetReportMask body s
  | .readConditions body => Sys2Proof.Machine.execReadConditions body s
  | .clearConditions body => Sys2Proof.Machine.execClearConditions body s
  | .readRing body => Sys2Proof.Machine.execReadRing body s
  | .reset body => Sys2Proof.Machine.execReset body s
  | .corSettledRise p => Sys2Proof.Machine.execCorSettledRise p s
  | .corSettledFall p => Sys2Proof.Machine.execCorSettledFall p s
  | .emergencyRise p => Sys2Proof.Machine.execEmergencyRise p s
  | .emgSettledFall p => Sys2Proof.Machine.execEmgSettledFall p s
  | .talkTimeExpiry p => Sys2Proof.Machine.execTalkTimeExpiry p s
  | .keyUpExpiry p => Sys2Proof.Machine.execKeyUpExpiry p s
  | .enterHang p => Sys2Proof.Machine.execEnterHang p s
  | .hangExpiry p => Sys2Proof.Machine.execHangExpiry p s
  | .keyConfirmExpiry p => Sys2Proof.Machine.execKeyConfirmExpiry p s
  | .alertTimerExpiry q => Sys2Proof.Machine.execAlertTimerExpiry q s
  | .graceTimerExpiry => Sys2Proof.Machine.execGraceTimerExpiry s
  | .cadenceCountEnd => Sys2Proof.Machine.execCadenceCountEnd s
  | .unknownOrder kind body => Sys2Proof.Machine.execUnknownOrder kind body s
  | .setProtection body keysw => Sys2Proof.Machine.execSetProtection body keysw s
  | .hfsPulse => Sys2Proof.Machine.execHfsPulse s
  | .noPulseByPeriod512 => Sys2Proof.Machine.execNoPulseByPeriod512 s

end Sys2Proof.Machine
end

