-- ==== Sys2Proof/Safety.lean ====
section
/-! DEFINITION. The laws that every step of the machine keeps, each from a rule of the spec: the plan and the settings
(R3, R4, R22, R23, R90, R151), the sample stores (R60, R88), the ports (R31, R61, R68, R71, R74), the floors (R43, R50,
R52, R55), the rings (R64, R70), the switch (R118), the overrides (R95, R101, R103, R107), the claimants (R41, R43), the
reports (R144, R146), the management channel (R157 to R163, R167). -/

namespace Sys2Proof.Safety

open Sys2Proof.Machine

/-! ### Settings -/

/-- A port stands in at most one lane of a record (R4). -/
def oneLaneEach (r : PatchRec) : Prop :=
  ∀ n k : Lane, ∀ a b : MemberRec, look r.lanes n = some a → look r.lanes k = some b → a.port = b.port → n = k

/-- A port is a member of at most one valid patch of a bank (R4). -/
def onePatchEach (c : Settings) (b : Bank) : Prop :=
  ∀ p : Port, ∀ q r : Patch, (bankRecord c b q).valid = true → (bankRecord c b r).valid = true →
    stands (bankRecord c b q) p = true → stands (bankRecord c b r) p = true → q = r

/-- The first law of R4, in both banks. -/
def PlanLaw (c : Settings) : Prop :=
  (∀ b : Bank, ∀ q : Patch, oneLaneEach (bankRecord c b q)) ∧ ∀ b : Bank, onePatchEach c b

/-- A member record as R3 allows it: an override of at most 1000 ms, none on a console port. -/
def memberInRange (m : MemberRec) : Bool :=
  match m.keyUp with
  | none => true
  | some ms => ms ≤ 1000 && !isConsole m.port

/-- A port record as R22 and R23 allow it. -/
def portInRange (p : Port) (r : PortRec) : Bool :=
  r.keyUp ≤ 1000 && r.hang ≤ 5000 && r.talkLimit ≤ 600 && r.debounce ≤ 50 &&
    (r.confirm = 0 || (10 ≤ r.confirm && r.confirm ≤ 2000)) &&
    (!isConsole p || (r.duplex = .full && !r.rxlo && r.keyUp = 0 && r.confirm = 0 && r.debounce = 0))

/-- Cadence settings as R90 allows them. -/
def cadenceInRange (s : CadenceSettings) : Bool :=
  1 ≤ s.loopLength && s.loopLength ≤ 1024 && s.onMs ≤ 5000 && s.offMs ≤ 5000

/-- Every setting lies in the range the spec gives it (R3, R22, R23, R90, R151). -/
def SettingsLaw (c : Settings) : Prop :=
  (∀ b : Bank, ∀ q : Patch, ∀ n : Lane, ∀ m, look (bankRecord c b q).lanes n = some m → memberInRange m = true) ∧
  (∀ p : Port, portInRange p (look c.ports p) = true) ∧
  cadenceInRange c.cadence = true ∧
  ∀ src : Source, look c.masks src &&& classMask (sourceClass src) = look c.masks src

/-! ### Sample stores -/

/-- Every position a store lists lies below `size`. -/
def below (size : Nat) (m : Memory) : Bool := m.all (fun e => e.1 < size)

/-- A store of `size` positions in its canonical form. -/
def storeOk (size : Nat) (m : Memory) : Bool := Memory.wf m && below size m

/-- The tone memory and the rings keep their canonical form (R60, R88; log entry 17). -/
def MemoryLaw (c : Settings) (l : Live) : Prop :=
  storeOk Config.toneSize c.tone = true ∧ ∀ q : Patch, storeOk Config.ringSize (look l.rings q).store = true

/-! ### Ports -/

/-- A transmit machine as R61, R66, R68, R71 and R74 have it: a cursor exactly while keyed, a key-up timer exactly in
KEYING, a hang timer exactly in HANG; in DORMANT and FAULT nothing at all, a key-confirm timer and a sample neither. -/
def txLawful (t : TxPort) : Bool :=
  (keyed t == t.reader.isSome) && ((t.state = .keying) == t.keyUp.isSome) && ((t.state = .hang) == t.hang.isSome) &&
    (keyed t || t = { TxPort.dormant with state := t.state })

/-- A receive machine as R31 has it: a talk-time timer only in RX_ACTIVE. -/
def rxLawful (r : RxPort) : Bool := r.rx = .active || r.talk.isNone

/-- Every port's machines are lawful. -/
def PortLaw (l : Live) : Prop :=
  ∀ p : Port, txLawful (look l.tx p) = true ∧ rxLawful (look l.rx p) = true

/-! ### Floors -/

/-- At most one holder in SINGLE, at most four talkers in MIX (R43). -/
def floorFits (mode : Mode) (floor : List Port) : Bool :=
  match mode with
  | .single => floor.length ≤ 1
  | .mix => floor.length ≤ 4

/-- A context as R43, R52 and R55 have it: its floor fits its mode, its mode is SINGLE under MAYDAY, its floor is empty
under alert. -/
def contextLawful (ctx : Context) : Bool :=
  floorFits ctx.mode ctx.floor && (ctx.restriction.isNone || ctx.mode = .single) &&
    (ctx.source = .receive || ctx.floor.isEmpty)

/-- A save holds a floor that fits its mode (R103). -/
def saveLawful (save : Option Context) : Bool := save.all (fun ctx => floorFits ctx.mode ctx.floor)

/-- The contexts and saves of all patches are lawful. -/
def FloorLaw (l : Live) : Prop :=
  ∀ q : Patch, contextLawful (ctxOf l q) = true ∧ saveLawful (look l.ovr q).save1 = true ∧
    saveLawful (look l.ovr q).save2 = true

/-- A port that holds the floor of a patch, or talks in it, does not read that patch's ring (R50). -/
def GrantLaw (l : Live) : Prop := ∀ p : Port, ∀ q : Patch, onFloor l q p = true → reads l p q = false

/-- Every claimant is a TALK member of its patch and RX_ACTIVE, and every holder or talker is a claimant (R41, R43). -/
def ClaimLaw (c : Settings) (l : Live) : Prop :=
  (∀ q : Patch, ∀ p ∈ claimantsOf l q, talkMember c l q p = true ∧ rxActive l p = true) ∧
    ∀ q : Patch, ∀ p ∈ (ctxOf l q).floor, p ∈ claimantsOf l q

/-- No port is RX_ACTIVE while its COR is ignored (R34). -/
def IgnoredLaw (c : Settings) (l : Live) : Prop := ∀ p : Port, corIgnored c l p = true → rxActive l p = false

/-! ### The rings -/

/-- A reader's place in its ring: a lag of at most 4096 (R64), and an end mark not beyond the head (R70). -/
def placeLawful (head : Count) (r : Reader) : Bool :=
  (head - r.cursor).toNat ≤ Config.ringSize &&
    r.endMark.all (fun e => (e - r.cursor).toNat ≤ (head - r.cursor).toNat)

/-- Every reader's place in its ring is lawful. -/
def LagLaw (l : Live) : Prop :=
  ∀ p : Port, ∀ r : Reader, keyed (look l.tx p) = true → (look l.tx p).reader = some r →
    placeLawful (look l.rings r.ring).head r = true

/-! ### The switch -/

/-- Exactly the involved patches of a pending switch are freezing, none of them carries an override, and the involved
set is empty, the grace timer stopped and the model's marker of log entry 38 clear while no switch is pending (R118,
R121). -/
def SwitchLaw (l : Live) : Prop :=
  (∀ q : Patch, (look l.fla q).freezing = (switchPending l && l.switch.involved.contains q)) ∧
  (∀ q : Patch, switchPending l = true → q ∈ l.switch.involved → overridden l q = false) ∧
  (switchPending l = false → l.switch.involved = [] ∧ l.switch.grace = none ∧ l.switch.graceFirst = false)

/-- The involved set of a pending switch is the set of patches whose two records differ: no edit reaches it (R6, R118,
R119). -/
def PendingLaw (c : Settings) (l : Live) : Prop := switchPending l = true → l.switch.involved = involvedSet c l

/-! ### The overrides -/

/-- The override state of a patch: a level-1 save exactly with a mayday, a level-2 save and a loaded alert timer exactly
under alert, a latched port only under alert and without a mayday (R95, R97, R103, R106). -/
def overrideLawful (o : OverrideState) (alert : Bool) : Bool :=
  (o.save1.isSome == o.mayday.isSome) && (o.save2.isSome == alert) && (o.timer != .stopped) == alert &&
    (o.latch.isNone || (alert && o.mayday.isNone))

/-- The overrides are lawful patch by patch; only a valid patch is under alert; a mayday port and a latched port are
TALK members of their patch; exactly the mayday ports' lamps are lit; and exactly the patches with a mayday hold the
guest resource or wait for it, each once, none waiting while nobody holds (R97, R100, R101, R107, R111). -/
def OverrideLaw (c : Settings) (l : Live) : Prop :=
  (∀ q : Patch, overrideLawful (look l.ovr q) (underAlert l q) = true) ∧
  (∀ q : Patch, underAlert l q = true → (activeRecord c l q).valid = true) ∧
  (∀ q : Patch, ∀ p, (look l.ovr q).mayday = some p ∨ (look l.ovr q).latch = some p → talkMember c l q p = true) ∧
  (∀ p : Port, look l.lamps p = isMaydayPort l p) ∧
  (∀ q : Patch, (look l.ovr q).mayday.isSome = (l.guestHolder == some q || l.guestQueue.contains q)) ∧
  l.guestQueue.Nodup ∧ (∀ q ∈ l.guestQueue, l.guestHolder ≠ some q) ∧ (l.guestHolder = none → l.guestQueue = [])

/-! ### Reports -/

/-- The report queue holds each source at most once, and only sources with a condition in EXC; EXC is within ACC; no
condition waits to be recorded between steps (R144 to R146). -/
def ReportLaw (l : Live) : Prop :=
  l.queue.Nodup ∧ (∀ src ∈ l.queue, look l.exc src ≠ 0) ∧
    (∀ src : Source, look l.exc src &&& look l.acc src = look l.exc src) ∧ l.raised = []

/-! ### The management channel -/

/-- A message is being parsed whose kind byte found RTR set (R158). -/
def parsingWithRtr : Parser → Bool
  | .kind => false
  | .length _ r => r
  | .body _ r _ _ => r
  | .hunt => false

/-- A complete message waits to be handed on whose kind byte found RTR set (R158). -/
def parsedWithRtr : Option Parsed → Bool
  | some (.complete _ _ r) => r
  | some (.abandoned _) => false
  | none => false

/-- The parser's body fits a message (R157): bytes had and bytes due are at most 60 together. -/
def parserFits : Parser → Bool
  | .body _ _ got due => got.length + due ≤ Config.maxBody && 1 ≤ due
  | .kind => true
  | .length _ _ => true
  | .hunt => true

/-- A finished message has a body that fits (R157). -/
def parsedFits : Option Parsed → Bool
  | some (.complete _ body _) => body.length ≤ Config.maxBody
  | some (.abandoned _) => true
  | none => true

/-- A place of the reply queue is reserved. -/
def isReserved : Place → Bool
  | .reserved => true
  | .ready _ => false

/-- The channel keeps its capacities: two buffered orders, two reply places, four owed refusals, bodies of at most 60
bytes; one place is reserved exactly while the ORU holds an order; and a message that found RTR set has room in the
order buffer (R157 to R163). -/
def ChannelLaw (m : Channel) : Prop :=
  m.buffer.length ≤ Config.bufferSize ∧ m.replies.length ≤ Config.replyPlaces ∧ m.owed.length ≤ Config.owedSize ∧
  m.replies.countP isReserved = (if m.oru.isSome then 1 else 0) ∧
  (parsingWithRtr m.parser || parsedWithRtr m.parsed → m.buffer.length < Config.bufferSize) ∧
  (parsingWithRtr m.parser && parsedWithRtr m.parsed) = false ∧
  parserFits m.parser = true ∧ parsedFits m.parsed = true ∧
  (∀ o ∈ m.buffer, o.body.length ≤ Config.maxBody) ∧ (∀ o ∈ m.oru, o.body.length ≤ Config.maxBody)

end Sys2Proof.Safety
end

