-- ==== Sys2Proof/Certificates/Slice0/Obligations.lean ====
section
/-! DEFINITION. The statements for the provers, from the numbered rules of the spec. `catchUp s` is `s` after the steps
that come about at once (log entry 4); statement CatchingUpIsTheImmediateSteps says which they are. -/

namespace Sys2Proof.Claims

open Sys2Proof.Machine

/-! ### The words of the statements -/

/-- The command has the next state `t`. -/
abbrev Answers (i : Instr) (s t : State) : Prop := exec i s = .next t

/-- The ORU holds this order, and a frame has arrived since it was taken (R163). -/
abbrev Holds (s : State) (kind : Byte) (body : List Byte) : Prop :=
  s.mci.oru = some { kind := kind, body := body, due := true }

/-- The state with the KEYSW line at a level. -/
def withKey (k : Bool) (s : State) : State := { s with hwi := { s.hwi with keysw := k } }

/-- The state with other settings and another live state. -/
def withCore (c : Settings) (l : Live) (s : State) : State := { s with cfg := c, live := l }

/-- The state after the ORU has answered the order it held: it holds none, and the reply's body (order kind, status
code, data) stands in the reserved place (R163, R177). -/
def withReply (kind code : Byte) (data : List Byte) (s : State) : State :=
  { s with mci := { s.mci with oru := none, replies := fillReserved (kind :: code :: data) s.mci.replies } }

/-- The order is refused with a status: no data, and nothing else changes (R164). -/
abbrev Refuses (i : Instr) (kind code : Byte) (s : State) : Prop := Answers i s (withReply kind code [] (catchUp s))

/-- The order held by the ORU that each order command carries out: its kind byte and its body (R177). -/
def carriedOrder : Instr → Option (Byte × List Byte)
  | .identify body => some (0x01, body)
  | .reset body => some (0x02, body)
  | .readPort body => some (0x10, body)
  | .setPort body => some (0x11, body)
  | .clearPort body => some (0x12, body)
  | .readPatch body => some (0x20, body)
  | .definePatch body => some (0x21, body)
  | .setMember body => some (0x22, body)
  | .deletePatch body => some (0x23, body)
  | .clearBank body => some (0x24, body)
  | .switchPlan body => some (0x30, body)
  | .abortSwitch body => some (0x31, body)
  | .declareMayday body => some (0x40, body)
  | .clearMayday body => some (0x41, body)
  | .soundAlert body => some (0x42, body)
  | .cancelAlert body => some (0x43, body)
  | .loadTone body => some (0x48, body)
  | .setCadence body => some (0x49, body)
  | .protect body _ => some (0x50, body)
  | .unprotect body _ => some (0x50, body)
  | .protectAll body _ => some (0x50, body)
  | .unprotectAll body _ => some (0x50, body)
  | .setLock body _ => some (0x50, body)
  | .clearLock body _ => some (0x50, body)
  | .setProtection body _ => some (0x50, body)
  | .readProtection body _ => some (0x51, body)
  | .setReportMask body => some (0x60, body)
  | .readConditions body => some (0x61, body)
  | .clearConditions body => some (0x62, body)
  | .readRing body => some (0x70, body)
  | .unknownOrder kind body => some (kind, body)
  | _ => none

/-- The KEYSW level that a command carries, for the orders that read the line (R134). -/
def keyOf : Instr → Option Bool
  | .protect _ k => some k
  | .unprotect _ k => some k
  | .protectAll _ k => some k
  | .unprotectAll _ k => some k
  | .setLock _ k => some k
  | .clearLock _ k => some k
  | .setProtection _ k => some k
  | .readProtection _ k => some k
  | _ => none

/-- Commands run one after another. -/
def runAll : List Instr → State → Option State
  | [], s => some s
  | i :: is, s => match exec i s with
    | .next t => runAll is t
    | .fault _ => none
    | .refused _ => none

/-- What an event command names has come about, or, for a frame or pulse command, fits where the frame stands (R27, R28,
R32, R37, R68, R71, R72, R75, R92, R114, R123, R158, R159, R162, R163, R167, R172, R175). Nothing else has to come about
for the two resets that the outside makes; the orders are spoken of by `carriedOrder`. -/
def EventDue (s : State) : Instr → Prop
  | .corSettledRise p => (look s.live.rx p).cor.due = some true
  | .corSettledFall p => (look s.live.rx p).cor.due = some false
  | .emergencyRise p => (look s.live.rx p).emg.due = some true
  | .emgSettledFall p => (look s.live.rx p).emg.due = some false
  | .talkTimeExpiry p => (look s.live.rx p).rx = .active ∧ (look s.live.rx p).talk = some 0
  | .keyUpExpiry p => (look s.live.tx p).state = .keying ∧ (look s.live.tx p).keyUp = some 0
  | .enterHang p => (look s.live.tx p).state = .onAir ∧ (look s.live.tx p).hangDue = true
  | .hangExpiry p => (look s.live.tx p).state = .hang ∧ (look s.live.tx p).hang = some 0
  | .keyConfirmExpiry p => keyed (look s.live.tx p) = true ∧ (look s.live.tx p).confirm = some 0
  | .alertTimerExpiry q => (ctxOf s.live q).source = .alert ∧ (look s.live.ovr q).timer = .running 0
  | .graceTimerExpiry => s.live.switch.state = .pending ∧ s.live.switch.grace = some 0
  | .cadenceCountEnd => (s.live.gen.phase = .on ∨ s.live.gen.phase = .off) ∧ s.live.gen.count = 0
  | .messageComplete => ∃ k b r, s.mci.parsed = some (.complete k b r)
  | .messageAbandoned => ∃ k, s.mci.parsed = some (.abandoned k)
  | .owedRefusal => s.mci.owed ≠ [] ∧ s.mci.replies.length < 2
  | .orderTaken => s.mci.oru = none ∧ s.mci.buffer ≠ [] ∧ s.mci.replies.length + s.mci.owed.length < 2
  | .replyStart => laneFree (beforeLane s) = true ∧ ∃ body rest, (beforeLane s).mci.replies = .ready body :: rest
  | .reportStart _ => laneFree (beforeLane s) = true ∧ (∀ body rest, (beforeLane s).mci.replies ≠ .ready body :: rest) ∧
      (beforeLane s).live.queue ≠ []
  | .rstRelease => s.hwi.inReset = true
  | .frameArrival _ _ _ => s.hwi.phase = .running
  | .hfsPulse => s.hwi.phase ≠ .running
  | .earlyHfsPulse n => s.hwi.phase = .running ∧ n < 360
  | .noPulseByPeriod512 => s.hwi.phase = .arrived
  | _ => True

/-- What every reset leaves in the live state, given the active bank and the modes of the default contexts (R5, R26,
R44, R60, R66, R91, R96, R118). That the involved set beside a last outcome NONE is empty is the model's choice (log
entry 35). -/
def ClearedByReset (l : Live) (active : Bank) (mode : Patch → Mode) : Prop :=
  l.active = active ∧
  (∀ p : Port, (look l.rx p).rx = .quiet ∧ (look l.rx p).talk = none ∧
    (look l.rx p).cor.level = false ∧ (look l.rx p).cor.fresh = true ∧ (look l.rx p).cor.count = 0 ∧
    (look l.rx p).emg.level = false ∧ (p.val < 16 → (look l.rx p).emg.fresh = true)) ∧
  (∀ q : Patch, ctxOf l q = { mode := mode q, floor := [], restriction := none, source := .receive } ∧
    (look l.fla q).freezing = false ∧ claimantsOf l q = []) ∧
  (∀ q : Patch, look l.rings q = { store := [], head := 0 }) ∧
  (∀ p : Port, (look l.tx p).state = .dormant ∧ (look l.tx p).reader = none ∧ (look l.tx p).keyUp = none ∧
    (look l.tx p).hang = none ∧ (look l.tx p).confirm = none) ∧
  (∀ q : Patch, look l.ovr q = { save1 := none, save2 := none, mayday := none, latch := none, timer := .stopped }) ∧
  (∀ p : Port, look l.lamps p = false) ∧ l.guestHolder = none ∧ l.guestQueue = [] ∧ l.gen.phase = .stopped ∧
  l.switch = { state := .none, involved := [], grace := none, last := .none, lastInvolved := [] }

/-- No condition is recorded and no source is queued (R155). -/
abbrev NoConditions (l : Live) : Prop :=
  (∀ src : Source, look l.exc src = 0 ∧ look l.acc src = 0) ∧ l.queue = []

/-- RESTART alone is recorded, and the system source is the one entry of the queue (R155). -/
def RestartAlone (l : Live) : Prop :=
  (∀ src : Source, look l.exc src = (if src = 26 then 1 else 0) ∧ look l.acc src = (if src = 26 then 1 else 0)) ∧
    l.queue = [26]

/-- The management channel after power-on and RST reset (R168). -/
def ChannelCleared (m : Channel) : Prop :=
  m.parser = .kind ∧ m.parsed = none ∧ m.inBytes = [] ∧ m.buffer = [] ∧ m.owed = [] ∧ m.oru = none ∧ m.replies = [] ∧ m.out = []

/-- The Highway Interface after the application of power: it waits for a pulse, has driven no timeslot, has received
nothing, has no work of a frame left, and every outbound timeslot is 0 (R172, R175; the phase and what the spec gives no
value are the model's, log entries 13 and 18). -/
def HighwayWaits (h : Highway) : Prop :=
  h.phase = .waiting ∧ h.period = 512 ∧ h.driven = 0 ∧ (∀ p : Port, look h.received p = 0) ∧
  h.ringDue = false ∧ h.formDue = false ∧ h.lanes = [] ∧ ∀ k : Nat, k < 44 → h.out.slot k = some 0

/-- The frame that a pulse begins now has every outbound timeslot 0 (R175). -/
def DrivesZeros (t : State) : Prop := ∀ u, Answers .hfsPulse t u → ∀ k : Nat, k < 44 → u.hdo k = some 0

/-- A reset in progress drives every outbound timeslot 0, in the next frame and in the one after that (R175). -/
def DrivesZerosInReset (t : State) : Prop :=
  DrivesZeros t ∧ ∀ (hdi : Vector Byte 45) (k : Bool) (ts : List FrameTask) (u v : State),
    Answers .hfsPulse t u → Answers (.frameArrival hdi k ts) u v → DrivesZeros v

/-- A patch record in the cleared form (R2). -/
def InClearedForm (r : PatchRec) : Prop := r.valid = false ∧ r.mode = .single ∧ ∀ n : Lane, look r.lanes n = none

/-- Both banks in the cleared form and every port record at its power-on values (R5, R22, R26). -/
def PlanAndPortsCleared (c : Settings) : Prop :=
  (∀ b : Bank, ∀ q : Patch, InClearedForm (bankRecord c b q)) ∧
  (∀ p : Port, p.val < 16 → look c.ports p =
    { duplex := .half, rxlo := true, keyUp := 250, hang := 500, talkLimit := 120, confirm := 0, debounce := 5 }) ∧
  (∀ p : Port, 16 ≤ p.val → look c.ports p =
    { duplex := .full, rxlo := false, keyUp := 0, hang := 0, talkLimit := 0, confirm := 0, debounce := 0 })

/-- The count of a timer after one frame (R68). -/
def oneLess (t : Option Nat) : Option Nat := t.map (fun n => n - 1)

/-- A debounce after `n` frames that all carry the same raw level. -/
def afterFrames (need : Nat) (raw : Bool) : Nat → Debounce → Debounce
  | 0, d => d
  | n + 1, d => (afterFrames need raw n d).tick need raw

/-- The first bytes of a message: kind, length, body (R157). -/
def wire (kind : Byte) (body : List Byte) : List Byte := kind :: BitVec.ofNat 8 body.length :: body

end Sys2Proof.Claims

open Sys2Proof Sys2Proof.Machine Sys2Proof.Safety Sys2Proof.Claims

/-! ### The machine -/

/-- A step takes the command at the front of the queue and runs it on the state with the queue's rest; on an empty queue
the block idles, which is the model's choice (log entry 1). -/
def Obligations.StepTakesTheFrontCommand : Prop :=
  (∀ (i : Instr) (rest : List Instr) (s : State),
    step { s with pending := i :: rest } = exec i { s with pending := rest }) ∧
  ∀ s : State, s.pending = [] → step s = .next s

/-- Every command answers a next state and leaves the queue as it is (log entry 26). -/
def Obligations.EveryCommandCompletes : Prop :=
  ∀ (i : Instr) (s : State), ∃ t, Answers i s t ∧ t.pending = s.pending

/-- The steps that come about at once are the entries into HANG that the service found, the end of a cadence count, the
handing on of a finished message, two owed refusals and the taking of an order; catching up is running these commands
(R71, R92, R158, R159, R162, R163; that they precede every other command is the model's choice, log entry 4). -/
def Obligations.CatchingUpIsTheImmediateSteps : Prop :=
  ∀ s : State, runAll
    (allPorts.map Instr.enterHang ++
      [.cadenceCountEnd, .messageComplete, .messageAbandoned, .owedRefusal, .owedRefusal, .orderTaken]) s =
    some (catchUp s)

/-- An event that has not come about changes nothing, and an order that the ORU does not hold, or that no frame has
arrived for, changes nothing (the model's choice, log entry 3). -/
def Obligations.WhatIsNotDueChangesNothing : Prop :=
  (∀ (i : Instr) (s : State), ¬ EventDue s i → Answers i s s) ∧
  ∀ (i : Instr) (kind : Byte) (body : List Byte) (s : State),
    carriedOrder i = some (kind, body) → ¬ Holds s kind body → Answers i s s

/-! ### Resets -/

/-- What the part holds right after power-on reset (R5, R22, R26, R44, R60, R66, R88, R90, R91, R96, R118, R132, R155,
R168, R175). The queue of commands is the model's own (log entry 1), and so are the highway's waiting for a pulse (log
entry 13), its counts and samples of 0 (log entry 18), the KEYSW line deasserted (log entry 12), and the empty set of no
last switch (log entry 35). -/
def Obligations.PowerOnValues : Prop :=
  PlanAndPortsCleared State.reset.cfg ∧
  (∀ n : Nat, State.reset.cfg.tone.read n = 0) ∧
  State.reset.cfg.cadence = { loopLength := 1024, onMs := 0, offMs := 0, toneGain := 64, voiceGain := 64 } ∧
  (∀ p : Port, look State.reset.cfg.flags p = false) ∧ State.reset.cfg.plk = false ∧
  (∀ src : Source, look State.reset.cfg.masks src = 0) ∧
  ClearedByReset State.reset.live 0 (fun _ => .single) ∧ RestartAlone State.reset.live ∧
  ChannelCleared State.reset.mci ∧ State.reset.rtr = true ∧ HighwayWaits State.reset.hwi ∧
  State.reset.hwi.inReset = false ∧ State.reset.hwi.keysw = false ∧ State.reset.pending = []

/-- POWER_ON_RESET sets every piece of state to its power-on value, the highway included, which then waits for a pulse
with every outbound timeslot 0; with the RST line held the reset is still in progress, with no condition recorded and RTR
clear. RST_RESET does the same but keeps the tone memory, the cadence settings, the protection flags, PLK and the count
of the frame. While a reset is in progress every outbound timeslot of the frames that begin is 0. RST_RELEASE ends the
reset and records RESTART (R5, R26, R88, R90, R132, R155, R168, R175). The model's choices in it: POWER_ON_RESET carries
the RST level (log entry 11) and finds the highway waiting for a pulse (log entry 13) with counts and samples of 0 (log
entry 18), RST_RESET leaves the phase of the frame as it was (log entry 13), the KEYSW line keeps its level through every
reset (log entry 12), and the set of no last switch is empty (log entry 35). -/
def Obligations.PowerOnAndRstReset : Prop :=
  (∀ s : State, ∃ t, Answers (.powerOnReset false) s t ∧ t.cfg = State.reset.cfg ∧ t.live = State.reset.live ∧
    ChannelCleared t.mci ∧ t.rtr = true ∧ HighwayWaits t.hwi ∧ t.hwi.inReset = false ∧ t.hwi.keysw = s.hwi.keysw ∧
    t.pending = s.pending) ∧
  (∀ s : State, ∃ t, Answers (.powerOnReset true) s t ∧ t.cfg = State.reset.cfg ∧
    ClearedByReset t.live 0 (fun _ => .single) ∧ NoConditions t.live ∧ ChannelCleared t.mci ∧ t.rtr = false ∧
    HighwayWaits t.hwi ∧ t.hwi.inReset = true ∧ DrivesZerosInReset t ∧ t.hwi.keysw = s.hwi.keysw ∧
    t.pending = s.pending) ∧
  (∀ s : State, ∃ t, Answers .rstReset s t ∧ PlanAndPortsCleared t.cfg ∧ t.cfg.tone = s.cfg.tone ∧
    t.cfg.cadence = s.cfg.cadence ∧ t.cfg.flags = s.cfg.flags ∧ t.cfg.plk = s.cfg.plk ∧
    (∀ src : Source, look t.cfg.masks src = 0) ∧
    ClearedByReset t.live 0 (fun _ => .single) ∧ NoConditions t.live ∧ ChannelCleared t.mci ∧ t.rtr = false ∧
    t.hwi = { s.hwi with
      received := t.hwi.received, ringDue := false, formDue := false, lanes := [], out := t.hwi.out, inReset := true } ∧
    (∀ p : Port, look t.hwi.received p = 0) ∧ (∀ k : Nat, k < 44 → t.hwi.out.slot k = some 0) ∧
    DrivesZerosInReset t ∧ t.hwi.phase = s.hwi.phase ∧ t.hwi.keysw = s.hwi.keysw ∧ t.pending = s.pending) ∧
  ∀ s : State, s.hwi.inReset = true → NoConditions s.live →
    ∃ t, Answers .rstRelease s t ∧ RestartAlone t.live ∧ t.hwi = { s.hwi with inReset := false } ∧
      t.cfg = s.cfg ∧ t.mci = s.mci ∧ t.pending = s.pending ∧
      { t.live with exc := s.live.exc, acc := s.live.acc, queue := s.live.queue } = s.live

/-- The RESET order keeps the settings, the active bank and a message being sent, clears the live state and the rest of
the channel, leaves its DONE reply alone in the reply queue and records RESTART. The outbound timeslots that the next
pulse forms show every key bit and lamp off, every sample 0 and RTR set; they carry what is left of a message in flight,
and then the first bytes of the reply. With a body it is refused MALFORMED (R5, R166, R168, R170, R175). That the set of
no last switch is empty is the model's choice (log entry 35), and that the management bytes of the frame are lost with
the parser's message is its reading (log entry 34). -/
def Obligations.ResetOrder : Prop :=
  (∀ s : State, Holds s 0x02 [] → ∃ t, Answers (.reset []) s t ∧ t.cfg = s.cfg ∧ t.hwi = s.hwi ∧
    t.pending = s.pending ∧
    ClearedByReset t.live s.live.active (fun q => (activeRecord s.cfg s.live q).mode) ∧ RestartAlone t.live ∧
    t.mci = { parser := .kind, parsed := none, inBytes := [], buffer := [], owed := [], oru := none,
              replies := [.ready [0x02, 0x00]], out := s.mci.out } ∧
    (s.hwi.inReset = false → t.rtr = true)) ∧
  (∀ s t u : State, Holds s 0x02 [] → s.hwi.phase ≠ .running → s.hwi.inReset = false → s.hwi.formDue = true →
    Answers (.reset []) s t → Answers .hfsPulse t u →
    (∀ k : Nat, k < 42 → u.hdo k = some (if k = 38 then 4 else 0)) ∧
    let bytes := s.hwi.lanes ++ s.mci.out ++ wire 0x80 [0x02, 0x00]
    u.hdo 42 = some (bytes.getD 0 0) ∧ u.hdo 43 = some (bytes.getD 1 0)) ∧
  ∀ (s : State) (body : List Byte), body ≠ [] → Holds s 0x02 body → Refuses (.reset body) 0x02 0x10 s

/-! ### Frames -/

/-- A frame arrives: the inbound values of R174 are taken; every timer counts down by one and a key-confirm timer whose
KCF is seen stops; the debounces take their raw levels; the order the ORU holds becomes due; a message being sent fills
the next byte places; floors, rings, settings and conditions stay. In a reset in progress nothing is read (R68, R74,
R114, R123, R163, R167, R172, R174, R175). The model's choices in it: an arrival with no frame in progress changes
nothing (log entry 3), and the level of the KEYSW line comes with the arrival and is kept (log entry 12). -/
def Obligations.FrameArrivalTakesTheFrame : Prop :=
  (∀ (hdi : Vector Byte 45) (k : Bool) (s : State), s.hwi.phase = .running → s.hwi.inReset = false →
    ∃ t, Answers (.frameArrival hdi k []) s t ∧ t.cfg = s.cfg ∧ t.pending = s.pending ∧
      t.hwi.phase = .arrived ∧ t.hwi.period = 360 ∧ t.hwi.keysw = k ∧ t.hwi.ringDue = true ∧ t.hwi.formDue = true ∧
      (∀ p : Port, look t.hwi.received p = hdi.getD (2 * p.val) 0 ++ hdi.getD (2 * p.val + 1) 0) ∧
      t.mci.inBytes = [hdi.getD 43 0, hdi.getD 44 0] ∧
      t.mci.oru = (catchUp s).mci.oru.map (fun o => { o with due := true }) ∧
      t.hwi.lanes = (catchUp s).mci.out.take 2 ∧ t.mci.out = (catchUp s).mci.out.drop 2 ∧
      t.mci.buffer = (catchUp s).mci.buffer ∧ t.mci.replies = (catchUp s).mci.replies ∧
      (∀ p : Port, look t.live.tx p =
        let x := look (catchUp s).live.tx p
        { x with
          keyUp := oneLess x.keyUp
          hang := oneLess x.hang
          confirm := if p.val < 16 ∧ (hdi.getD (40 + p.val / 8) 0).getLsbD (p.val % 8) = true then none
            else oneLess x.confirm }) ∧
      (∀ p : Port, p.val < 16 → look t.live.rx p =
        let x := look s.live.rx p
        let need := max 1 (8 * (look s.cfg.ports p).debounce)
        { x with
          talk := oneLess x.talk
          cor := x.cor.tick need ((hdi.getD (36 + p.val / 8) 0).getLsbD (p.val % 8))
          emg := x.emg.tick need ((hdi.getD (38 + p.val / 8) 0).getLsbD (p.val % 8)) }) ∧
      (∀ p : Port, 16 ≤ p.val → look t.live.rx p =
        let x := look s.live.rx p
        { x with
          talk := oneLess x.talk
          cor := x.cor.tick (max 1 (8 * (look s.cfg.ports p).debounce)) ((hdi.getD 42 0).getLsbD (p.val - 16)) }) ∧
      (∀ q : Patch, (look t.live.ovr q).timer = match (look s.live.ovr q).timer with
        | .running n => .running (n - 1)
        | other => other) ∧
      t.live.switch = { s.live.switch with grace := oneLess s.live.switch.grace } ∧
      t.live.fla = s.live.fla ∧ t.live.rings = s.live.rings ∧ t.live.active = s.live.active ∧
      t.live.lamps = s.live.lamps ∧ t.live.guestHolder = s.live.guestHolder ∧ t.live.exc = s.live.exc ∧
      t.live.acc = s.live.acc ∧ t.live.queue = s.live.queue) ∧
  (∀ (hdi : Vector Byte 45) (k : Bool) (ts : List FrameTask) (s : State), s.hwi.phase = .running →
    s.hwi.inReset = true →
    Answers (.frameArrival hdi k ts) s { s with hwi := { s.hwi with phase := .arrived, period := 360 } }) ∧
  ∀ (hdi : Vector Byte 45) (k : Bool) (ts : List FrameTask) (s : State), s.hwi.phase ≠ .running →
    Answers (.frameArrival hdi k ts) s s

/-- The work of a frame is taken in the order that FRAME_ARRIVAL lists, each item doing what its own command does: the
settled events, the expiries, the order held, whichever it is (R163; the listing is the model's choice, log entry 2). One
more item sets the expiry of the grace timer, if it is due, before the idle test that may still come about in the frame
(R123; the marker is the model's, log entry 38). -/
def Obligations.FrameWorkIsTakenInTheListedOrder : Prop :=
  (∀ (hdi : Vector Byte 45) (k : Bool) (ts : List FrameTask) (x : FrameTask) (s t : State),
    s.hwi.phase = .running → s.hwi.inReset = false → Answers (.frameArrival hdi k ts) s t →
    Answers (.frameArrival hdi k (ts ++ [x])) s (runTask t x)) ∧
  (∀ (p : Port) (s : State), Answers (.talkTimeExpiry p) s (runTask s (.talkTime p)) ∧
    Answers (.keyUpExpiry p) s (runTask s (.keyUp p)) ∧ Answers (.hangExpiry p) s (runTask s (.hang p)) ∧
    Answers (.keyConfirmExpiry p) s (runTask s (.keyConfirm p))) ∧
  (∀ (q : Patch) (s : State), Answers (.alertTimerExpiry q) s (runTask s (.alert q))) ∧
  (∀ s : State, Answers .graceTimerExpiry s (runTask s .grace)) ∧
  (∀ s : State, s.live.switch.state = .pending → s.live.switch.grace = some 0 →
    runTask s .graceFirst =
      { s with live := { s.live with switch := { s.live.switch with graceFirst := true } } }) ∧
  (∀ s : State, s.live.switch.state = .none ∨ s.live.switch.grace ≠ some 0 → runTask s .graceFirst = s) ∧
  (∀ (p : Port) (s : State), (look s.live.rx p).cor.due = some true →
    Answers (.corSettledRise p) s (runTask s (.cor p))) ∧
  (∀ (p : Port) (s : State), (look s.live.rx p).cor.due = some false →
    Answers (.corSettledFall p) s (runTask s (.cor p))) ∧
  (∀ (p : Port) (s : State), (look s.live.rx p).emg.due = some true →
    Answers (.emergencyRise p) s (runTask s (.emg p))) ∧
  (∀ (p : Port) (s : State), (look s.live.rx p).emg.due = some false →
    Answers (.emgSettledFall p) s (runTask s (.emg p))) ∧
  ∀ (i : Instr) (kind : Byte) (body : List Byte) (s : State), i.wf = true → carriedOrder i = some (kind, body) →
    (∀ k, keyOf i = some k → k = s.hwi.keysw) → Holds s kind body → Answers i s (runTask s .order)

/-- The pulses (R172): a pulse after the arrival begins the next frame with the rest of the frame's work done and the
outbound slots formed; a pulse while the part waits begins one with the timeslots driven before; an early pulse drops
the frame in progress, so that nothing but the count changes, and the timeslots driven are those whose eight periods had
passed; at period 512 the part waits. The model's choices in it: a frame's remaining work is done at the latest here (log
entry 2), a pulse command that does not fit the phase changes nothing (log entry 3), and an early pulse leaves the
outbound timeslots (log entry 7) and the management bytes (log entry 8) of the dropped frame to be driven again. -/
def Obligations.PulsesBeginFrames : Prop :=
  (∀ s : State, s.hwi.phase = .arrived → ∃ t, Answers .hfsPulse s t ∧
    withCore t.cfg t.live (settleFrame s) = { t with hwi := (settleFrame s).hwi } ∧
    t.live = (settleFrame s).live ∧ t.cfg = (settleFrame s).cfg ∧
    t.hwi.phase = .running ∧ t.hwi.period = 0 ∧ t.hwi.driven = 44 ∧ t.hwi.ringDue = false ∧ t.hwi.formDue = false) ∧
  (∀ s : State, s.hwi.phase = .waiting → ∃ t, Answers .hfsPulse s t ∧ t.live = (settleFrame s).live ∧
    t.cfg = (settleFrame s).cfg ∧ t.mci = (settleFrame s).mci ∧ t.hwi.phase = .running ∧ t.hwi.period = 0 ∧
    t.hwi.driven = s.hwi.driven ∧ t.hwi.formDue = false) ∧
  (∀ s : State, s.hwi.phase = .running → Answers .hfsPulse s s) ∧
  (∀ (n : Nat) (s : State), s.hwi.phase = .running → n < 360 →
    Answers (.earlyHfsPulse n) s
      { s with hwi := { s.hwi with phase := .running, period := 0, driven := min 44 (n / 8) } }) ∧
  (∀ (n : Nat) (s : State), s.hwi.phase ≠ .running ∨ 360 ≤ n → Answers (.earlyHfsPulse n) s s) ∧
  (∀ s : State, s.hwi.phase = .arrived → ∃ t, Answers .noPulseByPeriod512 s t ∧ t.live = (settleFrame s).live ∧
    t.cfg = (settleFrame s).cfg ∧ t.mci = (settleFrame s).mci ∧ t.hwi.phase = .waiting ∧ t.hwi.period = 512 ∧
    t.hwi.driven = 44 ∧ (∀ k : Nat, t.hdo k = none)) ∧
  ∀ s : State, s.hwi.phase ≠ .arrived → Answers .noPulseByPeriod512 s s

/-- The outbound slots that a pulse forms after an arrival, timeslot by timeslot (R66, R101, R160, R173, R174): the
sample of a port ON_AIR and 0 for every other; PTT or audio present exactly in KEYING, ON_AIR and HANG; the lamps; RTR
in bit 2 of timeslot 38; the two management bytes. A dropped frame's slots are driven again (log entry 7). -/
def Obligations.OutboundSlotsShowTheState : Prop :=
  (∀ s t : State, s.hwi.phase ≠ .running → s.hwi.formDue = true → Answers .hfsPulse s t →
    let u := settleFrame s
    (∀ p : Port, let v : Sample := if (look u.live.tx p).state = .onAir then (look u.live.tx p).sample else 0
      t.hdo (2 * p.val) = some (v.extractLsb' 8 8) ∧ t.hdo (2 * p.val + 1) = some (v.extractLsb' 0 8)) ∧
    (∃ a b d e f g : Byte, t.hdo 36 = some a ∧ t.hdo 37 = some b ∧ t.hdo 38 = some d ∧ t.hdo 39 = some e ∧
      t.hdo 40 = some f ∧ t.hdo 41 = some g ∧
      (∀ p : Port, p.val < 8 → a.getLsbD p.val = keyed (look u.live.tx p) ∧ e.getLsbD p.val = look u.live.lamps p) ∧
      (∀ p : Port, 8 ≤ p.val → p.val < 16 → b.getLsbD (p.val - 8) = keyed (look u.live.tx p) ∧
        f.getLsbD (p.val - 8) = look u.live.lamps p) ∧
      (∀ p : Port, 16 ≤ p.val → d.getLsbD (p.val - 16) = keyed (look u.live.tx p) ∧
        g.getLsbD (p.val - 16) = look u.live.lamps p) ∧
      d.getLsbD 2 = u.rtr ∧ (∀ n : Nat, 3 ≤ n → d.getLsbD n = false) ∧ ∀ n : Nat, 2 ≤ n → g.getLsbD n = false) ∧
    t.hdo 42 = some (u.hwi.lanes.getD 0 0) ∧ t.hdo 43 = some (u.hwi.lanes.getD 1 0) ∧
    ∀ k : Nat, 44 ≤ k → t.hdo k = none) ∧
  ∀ s t : State, s.hwi.phase ≠ .running → s.hwi.formDue = false → Answers .hfsPulse s t → t.hwi.out = s.hwi.out

/-- Debouncing (R27, R28), `need` frames being 8 × d, and one for d = 0. By R27: a raw level equal to the debounced
level sets the count to 0; one that differs counts, and settles exactly on the frame that completes the count. A fresh
debounce counts frames of one value from 1, whatever the level held, and settles at that value on the frame that
completes the count. -/
def Obligations.DebounceSettlesOnTheCompletingFrame : Prop :=
  (∀ (need : Nat) (d : Debounce), d.fresh = false →
    d.tick need d.level = { d with count := 0, due := none }) ∧
  (∀ (need n : Nat) (d : Debounce), d.fresh = false → d.count = 0 → 1 ≤ n →
    afterFrames need (!d.level) n d = { d with count := n, due := if need ≤ n then some (!d.level) else none }) ∧
  (∀ (need n : Nat) (raw : Bool) (d : Debounce), d.fresh = true → d.count = 0 ∨ d.run ≠ raw → 1 ≤ n →
    afterFrames need raw n d =
      { d with run := raw, count := n, due := if need ≤ n then some raw else none })

/-! ### The management channel -/

/-- The parser (R158): each state and byte of its table, the next state, and the message that is complete or abandoned;
a frame's management bytes are taken in order, RTR being examined as it stands at the kind byte (R156, R161). A complete
message is handed on: into the order buffer if RTR was set at its kind byte; else it is discarded and one BUSY is owed. An
abandoned one is owed MALFORMED. A list of four owed refusals takes no further entry (R158, R159, R161, R162). -/
def Obligations.MessagesAreParsedAndHandedOn : Prop :=
  (∀ rtr : Bool, parseByte rtr 0 .kind = (.kind, none)) ∧
  (∀ (rtr : Bool) (b : Byte), b ≠ 0 → parseByte rtr b .kind = (.length b rtr, none)) ∧
  (∀ (rtr r : Bool) (k : Byte), parseByte rtr 0 (.length k r) = (.kind, some (.complete k [] r))) ∧
  (∀ (rtr r : Bool) (k b : Byte), 1 ≤ b.toNat → b.toNat ≤ 60 →
    parseByte rtr b (.length k r) = (.body k r [] b.toNat, none)) ∧
  (∀ (rtr r : Bool) (k b : Byte), 61 ≤ b.toNat →
    parseByte rtr b (.length k r) = (.hunt, some (.abandoned k))) ∧
  (∀ (rtr r : Bool) (k b : Byte) (got : List Byte) (due : Nat), 1 < due →
    parseByte rtr b (.body k r got due) = (.body k r (got ++ [b]) (due - 1), none)) ∧
  (∀ (rtr r : Bool) (k b : Byte) (got : List Byte),
    parseByte rtr b (.body k r got 1) = (.kind, some (.complete k (got ++ [b]) r))) ∧
  (∀ (rtr : Bool) (b : Byte), parseByte rtr b .hunt = (if b = 0 then .kind else .hunt, none)) ∧
  (∀ (s : State) (b : Byte) (rest : List Byte), s.mci.inBytes = b :: rest →
    runTask s .byte =
      let u := catchUp s
      let r := parseByte u.rtr b u.mci.parser
      { u with mci := { u.mci with inBytes := rest, parser := r.1, parsed := r.2 } }) ∧
  (∀ (s : State) (k : Byte) (body : List Byte), s.mci.parsed = some (.complete k body true) →
    Answers .messageComplete s
      { s with mci := { s.mci with parsed := none, buffer := s.mci.buffer ++ [{ kind := k, body := body }] } }) ∧
  (∀ (s : State) (k : Byte) (body : List Byte), s.mci.parsed = some (.complete k body false) →
    Answers .messageComplete s
      { s with mci := { s.mci with
          parsed := none
          owed := if s.mci.owed.length < 4 then s.mci.owed ++ [{ kind := k, status := .busy }] else s.mci.owed } }) ∧
  ∀ (s : State) (k : Byte), s.mci.parsed = some (.abandoned k) →
    Answers .messageAbandoned s
      { s with mci := { s.mci with
          parsed := none
          owed := if s.mci.owed.length < 4 then s.mci.owed ++ [{ kind := k, status := .malformed }]
            else s.mci.owed } }

/-- An owed refusal takes a free reply place as a reply with its kind, its status and no data. The ORU takes the first
buffered order when it holds none and a place is free once owed refusals have taken theirs, and reserves the place
(R162, R163). Where it cannot take one, ORDER_TAKEN changes nothing and moves no owed refusal, which is the model's choice
(log entry 3). -/
def Obligations.OrdersAndOwedRefusalsTakePlaces : Prop :=
  (∀ (s : State) (e : Owed) (rest : List Owed), s.mci.owed = e :: rest → s.mci.replies.length < 2 →
    Answers .owedRefusal s
      { s with mci := { s.mci with
          owed := rest
          replies := s.mci.replies ++ [.ready [e.kind, statusByte e.status]] } }) ∧
  (∀ (s : State) (o : Order) (rest : List Order), s.mci.oru = none → s.mci.owed = [] → s.mci.buffer = o :: rest →
    s.mci.replies.length < 2 →
    Answers .orderTaken s
      { s with mci := { s.mci with
          buffer := rest
          oru := some { kind := o.kind, body := o.body, due := false }
          replies := s.mci.replies ++ [.reserved] } }) ∧
  (∀ (s : State) (e : Owed) (o : Order) (rest : List Order), s.mci.oru = none → s.mci.owed = [e] →
    s.mci.buffer = o :: rest → s.mci.replies = [] →
    Answers .orderTaken s
      { s with mci := { s.mci with
          owed := []
          buffer := rest
          oru := some { kind := o.kind, body := o.body, due := false }
          replies := [.ready [e.kind, statusByte e.status], .reserved] } }) ∧
  ∀ s : State, s.mci.oru ≠ none ∨ s.mci.buffer = [] ∨ 2 ≤ s.mci.replies.length + s.mci.owed.length →
    Answers .orderTaken s s

/-- RTR is set exactly while fewer than two orders are buffered and fewer than two reply places are taken and no reset is
in progress (R160). Of an outbound byte place (R167): a message in progress goes on; else a ready first reply starts and
leaves the reply queue; else the first queued source's report starts, takes source, reported bit, EXC and snapshot,
empties that EXC, keeps ACC and leaves the queue (R147), by its own command and by the frame's own item for the place
alike; else the place carries the idle fill 0. Each place is chosen in the state `beforeLane s`, in which a RESET order
that is due has been carried out first (log entry 9) and what comes about at once has been taken (log entry 4), which is
the model's reading. So a MALFORMED reply owed to the first frame after a power-on or RST reset goes out before the
RESTART report that R168 names first (log entry 36). -/
def Obligations.OutboundBytePlaces : Prop :=
  (∀ s : State, s.rtr = true ↔
    s.hwi.inReset = false ∧ s.mci.buffer.length < 2 ∧ s.mci.replies.length < 2) ∧
  (∀ (s : State) (b : Byte) (rest : List Byte), s.hwi.formDue = true → (beforeLane s).hwi.lanes.length < 2 →
    (beforeLane s).mci.out = b :: rest →
    runTask s .lane =
      let u := beforeLane s
      { u with mci := { u.mci with out := rest }, hwi := { u.hwi with lanes := u.hwi.lanes ++ [b] } }) ∧
  (∀ (s : State) (body : List Byte) (rest : List Place), s.hwi.formDue = true →
    (beforeLane s).hwi.lanes.length < 2 → (beforeLane s).mci.out = [] →
    (beforeLane s).mci.replies = .ready body :: rest →
    let u := beforeLane s
    let n := 2 - u.hwi.lanes.length
    let t := { u with
      mci := { u.mci with replies := rest, out := (wire 0x80 body).drop n }
      hwi := { u.hwi with lanes := u.hwi.lanes ++ (wire 0x80 body).take n } }
    Answers .replyStart s t ∧ runTask s .lane = t) ∧
  (∀ (s : State) (k : Bool) (src : Source) (rest : List Source), s.hwi.formDue = true →
    (beforeLane (withKey k s)).hwi.lanes.length < 2 → (beforeLane (withKey k s)).mci.out = [] →
    (∀ body more, (beforeLane (withKey k s)).mci.replies ≠ .ready body :: more) →
    (beforeLane (withKey k s)).live.queue = src :: rest →
    let u := beforeLane (withKey k s)
    let n := 2 - u.hwi.lanes.length
    let body := [BitVec.ofNat 8 src.val, reportedBit src (look u.live.exc src), look u.live.exc src] ++
      snapshot u.cfg u.live k src
    let t := { u with
      live := { u.live with exc := put u.live.exc src 0, queue := rest }
      mci := { u.mci with out := (wire 0x81 body).drop n }
      hwi := { u.hwi with lanes := u.hwi.lanes ++ (wire 0x81 body).take n } }
    Answers (.reportStart k) s t ∧ (s.hwi.keysw = k → runTask s .lane = t)) ∧
  ∀ s : State, s.hwi.formDue = true → (beforeLane s).hwi.lanes.length < 2 → (beforeLane s).mci.out = [] →
    (∀ body more, (beforeLane s).mci.replies ≠ .ready body :: more) → (beforeLane s).live.queue = [] →
    runTask s .lane =
      { beforeLane s with hwi := { (beforeLane s).hwi with lanes := (beforeLane s).hwi.lanes ++ [0] } }

/-- The snapshots (R148 to R150, R177), field by field, and the reported bit: the lowest one set in EXC, bit 0 having the
highest priority (R143, R147). -/
def Obligations.SnapshotsReportTheState : Prop :=
  (∀ (c : Settings) (l : Live) (k : Bool) (p : Port), snapshot c l k (portSource p) =
    [rxByte (look l.rx p).rx, txByte (look l.tx p).state,
     (match portPatch c l p with
      | some q => BitVec.ofNat 8 q.val
      | none => 0xFF),
     (if 16 ≤ p.val ∧ (∃ q, l.guestHolder = some q ∧ (ctxOf l q).source = .receive) then 1 else 0)] ++
      twoBytes (lagOf l p)) ∧
  (∀ (c : Settings) (l : Live) (k : Bool) (q : Patch), snapshot c l k (patchSource q) =
    [(if (activeRecord c l q).valid then 1 else 0), (if (ctxOf l q).mode = .mix then 1 else 0),
     portByte (ctxOf l q).restriction, (if (ctxOf l q).source = .alert then 1 else 0),
     BitVec.ofNat 8 (ctxOf l q).floor.length] ++
      [portByte (ctxOf l q).floor[0]?, portByte (ctxOf l q).floor[1]?, portByte (ctxOf l q).floor[2]?,
       portByte (ctxOf l q).floor[3]?] ++
      [(if (look l.ovr q).save1.isSome then 1 else 0) + (if (look l.ovr q).save2.isSome then 2 else 0),
       portByte (look l.ovr q).latch, (if (look l.fla q).freezing then 1 else 0)] ++
      twoBytes (deepestLag l q) ++ [if l.guestHolder = some q then 1 else 0]) ∧
  (∀ (c : Settings) (l : Live) (k : Bool), snapshot c l k 26 =
    [(if l.switch.state = .pending then 1 else 0), patchSetByte l.switch.involved] ++
      twoBytes (if l.switch.state = .pending then l.switch.grace.getD 0 / 8 else 0) ++
      [BitVec.ofNat 8 l.active.val] ++ outcomeBytes l.switch.last ++
      [patchSetByte l.switch.lastInvolved, (if c.plk then 1 else 0), (if k then 1 else 0)]) ∧
  ∀ (src : Source) (exc : Byte) (n : Nat), n < 8 → exc.getLsbD n = true → (∀ k, k < n → exc.getLsbD k = false) →
    reportedBit src exc = BitVec.ofNat 8 n

/-! ### Orders that read -/

namespace Sys2Proof.Claims

open Sys2Proof.Machine

/-- A port record of 11 bytes: duplex, RXLO, key-up, hang, talk-time, key-confirm, debounce (R177). -/
def portBytes (r : PortRec) : List Byte :=
  [if r.duplex = .full then 1 else 0, if r.rxlo then 1 else 0] ++ twoBytes r.keyUp ++ twoBytes r.hang ++
    twoBytes r.talkLimit ++ twoBytes r.confirm ++ [BitVec.ofNat 8 r.debounce]

/-- A lane of six bytes: port and rights, rank, input gain, output gain, key-up override; an empty lane as zeros (R176,
R177; log entry 14). -/
def laneBytes : Option MemberRec → List Byte
  | some m =>
    [BitVec.ofNat 8 (128 + 64 * m.talk.toNat + 32 * m.listen.toNat + m.port.val), BitVec.ofNat 8 m.rank.val, m.inGain,
     m.outGain] ++ twoBytes (match m.keyUp with
       | some ms => ms
       | none => 0xFFFF)
  | none => [0, 0, 0, 0, 0, 0]

/-- A patch record: header, then lanes 0 to 7 (R177). -/
def recordBytes (r : PatchRec) : List Byte :=
  BitVec.ofNat 8 (r.valid.toNat + 2 * (decide (r.mode = .mix)).toNat) ::
    (laneBytes (look r.lanes 0) ++ laneBytes (look r.lanes 1) ++ laneBytes (look r.lanes 2) ++
      laneBytes (look r.lanes 3) ++ laneBytes (look r.lanes 4) ++ laneBytes (look r.lanes 5) ++
      laneBytes (look r.lanes 6) ++ laneBytes (look r.lanes 7))

/-- The bank a selector byte names: 00h the ACTIVE one, 01h the STANDBY one (R1, R176). -/
def bankOf (l : Live) (sel : Byte) : Bank := if sel = 0 then l.active else if l.active = 0 then 1 else 0

/-- The body lengths that each kind of order allows (R177). -/
def lengthAllowed (kind : Byte) (n : Nat) : Bool :=
  match kind.toNat with
  | 0x01 => n = 0
  | 0x02 => n = 0
  | 0x10 => n = 1
  | 0x11 => n = 12
  | 0x12 => n = 1
  | 0x20 => n = 2
  | 0x21 => n = 51
  | 0x22 => n = 9
  | 0x23 => n = 2
  | 0x24 => n = 1
  | 0x30 => n = 1
  | 0x31 => n = 0
  | 0x40 => n = 1
  | 0x41 => n = 1
  | 0x42 => n = 3
  | 0x43 => n = 1
  | 0x48 => 4 ≤ n ∧ n ≤ 58 ∧ n % 2 = 0
  | 0x49 => n = 8
  | 0x50 => n = 4
  | 0x51 => n = 0
  | 0x60 => n = 2
  | 0x61 => n = 1
  | 0x62 => n = 1
  | 0x70 => n = 1
  | _ => true

/-- The state an order is answered in: the KEYSW level it carries is on the line, the ring work of the frame is done
where the order acts from the next frame on (R18, R84, R89, R93; log entry 6), and what comes about at once has been
taken (log entry 4). -/
def atOrder (i : Instr) (s : State) : State :=
  match i with
  | .definePatch _ => catchUp (finishRing s)
  | .setMember _ => catchUp (finishRing s)
  | .loadTone _ => catchUp (finishRing s)
  | .setCadence _ => catchUp (finishRing s)
  | _ => match keyOf i with
    | some k => catchUp (withKey k s)
    | none => catchUp s

end Sys2Proof.Claims

/-- IDENTIFY answers the three fixed codes and acts on nothing (R169). -/
def Obligations.IdentifyAnswersTheFixedCodes : Prop :=
  ∀ s : State, Holds s 0x01 [] → Answers (.identify []) s (withReply 0x01 0x00 [0x09, 0x71, 18, 3] (catchUp s))

/-- An order whose body length its kind does not allow is refused MALFORMED, one whose kind names no order UNKNOWN
whatever its length, and a SET PROTECTION of four bytes with none of the six operations RANGE (R135, R164, R166, R177).
The refusal changes nothing else. DEFINE PATCH, SET MEMBER, LOAD TONE and SET CADENCE are answered, refused too, once the
ring work of their frame is done (`atOrder`), which is the model's reading (log entry 6). -/
def Obligations.BadLengthsAndUnknownKindsAreRefused : Prop :=
  (∀ (i : Instr) (kind : Byte) (body : List Byte) (s : State), i.wf = true → carriedOrder i = some (kind, body) →
    lengthAllowed kind body.length = false → Holds s kind body →
    Answers i s (withReply kind 0x10 [] (atOrder i s))) ∧
  (∀ (kind : Byte) (body : List Byte) (s : State), kind ∉ orderKinds → Holds s kind body →
    Refuses (.unknownOrder kind body) kind 0x11 s) ∧
  ∀ (op a b d : Byte) (k : Bool) (s : State), op.toNat = 0 ∨ 6 < op.toNat → Holds s 0x50 [op, a, b, d] →
    Answers (.setProtection [op, a, b, d] k) s (withReply 0x50 0x12 [] (catchUp (withKey k s)))

/-- READ PORT answers the record as stored and the live signalling state, in every state (R40); a port number above 17 is
refused RANGE. -/
def Obligations.ReadPortAnswersRecordAndSignalling : Prop :=
  (∀ (p : Port) (s : State), Holds s 0x10 [BitVec.ofNat 8 p.val] →
    let l := (catchUp s).live
    Answers (.readPort [BitVec.ofNat 8 p.val]) s (withReply 0x10 0x00
      ([BitVec.ofNat 8 p.val, if 16 ≤ p.val then 1 else 0] ++ portBytes (look s.cfg.ports p) ++
        [rxByte (look l.rx p).rx, if (look l.rx p).cor.level then 1 else 0,
         if p.val < 16 ∧ (look l.rx p).emg.level = true then 1 else 0, txByte (look l.tx p).state]) (catchUp s))) ∧
  ∀ (b : Byte) (s : State), 17 < b.toNat → Holds s 0x10 [b] → Refuses (.readPort [b]) 0x10 0x12 s

/-- READ PATCH answers the stored record of the bank that the selector names as the order is carried out, with the
selector as given, in every switch state; a bad selector or patch number is refused RANGE (R1, R14). That an empty lane
is six bytes of 0 throughout is the model's reading (log entry 14). -/
def Obligations.ReadPatchAnswersTheStoredRecord : Prop :=
  (∀ (sel : Byte) (q : Patch) (s : State), sel.toNat < 2 → Holds s 0x20 [sel, BitVec.ofNat 8 q.val] →
    Answers (.readPatch [sel, BitVec.ofNat 8 q.val]) s (withReply 0x20 0x00
      ([sel, BitVec.ofNat 8 q.val] ++ recordBytes (bankRecord s.cfg (bankOf s.live sel) q)) (catchUp s))) ∧
  ∀ (sel b : Byte) (s : State), 1 < sel.toNat ∨ 7 < b.toNat → Holds s 0x20 [sel, b] →
    Refuses (.readPatch [sel, b]) 0x20 0x12 s

/-- READ RING answers the patch, whether its writer is active, the head, and each reader in order of port number with its
transmit state, guest bit and lag (R79); a patch number above 7 is refused RANGE. -/
def Obligations.ReadRingListsTheReaders : Prop :=
  (∀ (q : Patch) (s : State), Holds s 0x70 [BitVec.ofNat 8 q.val] →
    let l := (catchUp s).live
    let readers := allPorts.filter (fun p =>
      keyed (look l.tx p) && (look l.tx p).reader.any (fun r => r.ring = q))
    Answers (.readRing [BitVec.ofNat 8 q.val]) s (withReply 0x70 0x00
      ([BitVec.ofNat 8 q.val,
        if (ctxOf l q).floor ≠ [] ∨ (ctxOf l q).source = .alert then 1 else 0] ++
        twoBytes (look l.rings q).head.toNat ++ [BitVec.ofNat 8 readers.length] ++
        readers.flatMap (fun p =>
          [BitVec.ofNat 8 p.val,
           txByte (look l.tx p).state ||| (if 16 ≤ p.val ∧ l.guestHolder = some q then 0x80 else 0)] ++
          twoBytes (match (look l.tx p).reader with
            | some r => ((look l.rings r.ring).head - r.cursor).toNat
            | none => 0))) (catchUp s))) ∧
  ∀ (b : Byte) (s : State), 7 < b.toNat → Holds s 0x70 [b] → Refuses (.readRing [b]) 0x70 0x12 s

/-- READ CONDITIONS answers a source's EXC, ACC, mask bits and queued flag and clears nothing; a source above 26 is
refused RANGE (R153). -/
def Obligations.ReadConditionsAnswersTheSets : Prop :=
  (∀ (src : Source) (s : State), Holds s 0x61 [BitVec.ofNat 8 src.val] →
    Answers (.readConditions [BitVec.ofNat 8 src.val]) s (withReply 0x61 0x00
      [BitVec.ofNat 8 src.val, look s.live.exc src, look s.live.acc src, look s.cfg.masks src,
       if src ∈ s.live.queue then 1 else 0] (catchUp s))) ∧
  ∀ (b : Byte) (s : State), 26 < b.toNat → Holds s 0x61 [b] → Refuses (.readConditions [b]) 0x61 0x12 s

/-- READ PROTECTION answers the 18 flags, PLK and the KEYSW level read for the order, in every state (R140). -/
def Obligations.ReadProtectionAnswersFlagsAndKey : Prop :=
  ∀ (k : Bool) (s : State), Holds s 0x51 [] →
    ∃ a b d : Byte,
      Answers (.readProtection [] k) s (withReply 0x51 0x00
        [a, b, d, if s.cfg.plk then 1 else 0, if k then 1 else 0] (catchUp (withKey k s))) ∧
      (∀ p : Port, p.val < 8 → a.getLsbD p.val = look s.cfg.flags p) ∧
      (∀ p : Port, 8 ≤ p.val → p.val < 16 → b.getLsbD (p.val - 8) = look s.cfg.flags p) ∧
      (∀ p : Port, 16 ≤ p.val → d.getLsbD (p.val - 16) = look s.cfg.flags p) ∧ ∀ n : Nat, 2 ≤ n → d.getLsbD n = false

/-! ### Orders on protection and reports -/

namespace Sys2Proof.Claims

open Sys2Proof.Machine

/-- Bit `p` of the port set of a SET PROTECTION body: bits of `a` for ports 0 to 7, of `b` for 8 to 15, of `d` for 16 and
17 (R176). -/
def inSet (a b d : Byte) (p : Port) : Bool :=
  if p.val < 8 then a.getLsbD p.val else if p.val < 16 then b.getLsbD (p.val - 8) else d.getLsbD (p.val - 16)

/-- The state after a SET PROTECTION carried out: the new flags and PLK, and the reply with both and the KEYSW level read
(R137 to R139). -/
def protectionReply (flags : Vector Bool 18) (plk k : Bool) (s : State) : State :=
  withReply 0x50 0x00 (portSetBytes flags ++ [if plk then 1 else 0, if k then 1 else 0])
    { s with cfg := { s.cfg with flags := flags, plk := plk } }

/-- What R135 to R137 say of one flag operation: RANGE where its port set is read and names a port above 17, then
PENDING, then LOCKED while PLK is 1; else every flag becomes `new` of its old value. -/
def FlagOperation (i : List Byte → Bool → Instr) (op : Byte) (readsSet : Bool)
    (new : Byte → Byte → Byte → Port → Bool → Bool) : Prop :=
  ∀ (a b d : Byte) (k : Bool) (s : State), Holds s 0x50 [op, a, b, d] →
    let t := catchUp (withKey k s)
    let order := i [op, a, b, d] k
    (readsSet = true → 3 < d.toNat → Answers order s (withReply 0x50 0x12 [] t)) ∧
    ((readsSet = true → d.toNat ≤ 3) → s.live.switch.state = .pending →
      Answers order s (withReply 0x50 0x13 [] t)) ∧
    ((readsSet = true → d.toNat ≤ 3) → s.live.switch.state = .none → s.cfg.plk = true →
      Answers order s (withReply 0x50 0x14 [] t)) ∧
    ((readsSet = true → d.toNat ≤ 3) → s.live.switch.state = .none → s.cfg.plk = false →
      Answers order s
        (protectionReply (Vector.ofFn (fun p => new a b d p (look s.cfg.flags p))) false k t))

end Sys2Proof.Claims

/-- The four flag operations of SET PROTECTION (R137): PROTECT sets the flags of the set, UNPROTECT clears them, PROTECT
ALL sets all 18, UNPROTECT ALL clears all 18; other flags, traffic and the plan stay. Their checks come first (R135,
R136). -/
def Obligations.FlagOperationsWriteTheFlags : Prop :=
  FlagOperation .protect 0x01 true (fun a b d p old => inSet a b d p || old) ∧
  FlagOperation .unprotect 0x02 true (fun a b d p old => !inSet a b d p && old) ∧
  FlagOperation .protectAll 0x03 false (fun _ _ _ _ _ => true) ∧
  FlagOperation .unprotectAll 0x04 false (fun _ _ _ _ _ => false)

/-- SET LOCK makes PLK 1 at either key level; CLEAR LOCK makes PLK 0, but is refused LOCKED under hard lock; both
are refused PENDING while a switch is pending (R135, R136, R138, R139). -/
def Obligations.LockOperationsFollowTheKey : Prop :=
  ∀ (a b d : Byte) (k : Bool) (s : State),
    let t := catchUp (withKey k s)
    (Holds s 0x50 [0x05, a, b, d] → s.live.switch.state = .pending →
      Answers (.setLock [0x05, a, b, d] k) s (withReply 0x50 0x13 [] t)) ∧
    (Holds s 0x50 [0x05, a, b, d] → s.live.switch.state = .none →
      Answers (.setLock [0x05, a, b, d] k) s (protectionReply s.cfg.flags true k t)) ∧
    (Holds s 0x50 [0x06, a, b, d] → s.live.switch.state = .pending →
      Answers (.clearLock [0x06, a, b, d] k) s (withReply 0x50 0x13 [] t)) ∧
    (Holds s 0x50 [0x06, a, b, d] → s.live.switch.state = .none → s.cfg.plk = true → k = true →
      Answers (.clearLock [0x06, a, b, d] k) s (withReply 0x50 0x14 [] t)) ∧
    (Holds s 0x50 [0x06, a, b, d] → s.live.switch.state = .none → s.cfg.plk = false ∨ k = false →
      Answers (.clearLock [0x06, a, b, d] k) s (protectionReply s.cfg.flags false k t))

/-- SET REPORT MASK sets every mask bit of the source's class to the bit carried, reads no other bit, and answers the
mask bits as they stand after it; a source above 26 is refused RANGE (R151). -/
def Obligations.SetReportMaskWritesTheClassBits : Prop :=
  (∀ (src : Source) (m : Byte) (s : State), Holds s 0x60 [BitVec.ofNat 8 src.val, m] →
    let mask : Byte := m &&& (if src.val < 18 then 0x0F else if src.val < 26 then 0x30 else 0x40)
    Answers (.setReportMask [BitVec.ofNat 8 src.val, m]) s
      (withReply 0x60 0x00 [mask]
        (withCore { s.cfg with masks := put s.cfg.masks src mask } (catchUp s).live (catchUp s)))) ∧
  ∀ (b m : Byte) (s : State), 26 < b.toNat → Holds s 0x60 [b, m] → Refuses (.setReportMask [b, m]) 0x60 0x12 s

/-- CLEAR CONDITIONS empties the source's EXC and ACC and takes it out of the queue; the other queued sources keep their
order, and masks and everything else stay (R154). -/
def Obligations.ClearConditionsEmptiesTheSets : Prop :=
  (∀ (src : Source) (s : State), Holds s 0x62 [BitVec.ofNat 8 src.val] →
    let l := (catchUp s).live
    Answers (.clearConditions [BitVec.ofNat 8 src.val]) s
      (withReply 0x62 0x00 []
        (withCore s.cfg
          { l with exc := put l.exc src 0, acc := put l.acc src 0, queue := l.queue.filter (fun x => x ≠ src) }
          (catchUp s)))) ∧
  ∀ (b : Byte) (s : State), 26 < b.toNat → Holds s 0x62 [b] → Refuses (.clearConditions [b]) 0x62 0x12 s

/-- Recording a condition (R143, R144): its bit joins EXC and ACC whatever the mask; a nonmaskable condition, or one whose
mask bit is clear, appends the source to the queue unless it stands there; other sources stay. One event's conditions
are recorded in ascending source, and within one by priority (R145). -/
def Obligations.ConditionsAreRecordedAndQueued : Prop :=
  (∀ (masks : Vector Byte 27) (l : Live) (src : Source) (cond : Cond),
    let t := record masks l (src, cond)
    let counted := match cond with
      | .keyfail => !(look masks src).getLsbD 0
      | .loop => !(look masks src).getLsbD 1
      | .lagloss => !(look masks src).getLsbD 2
      | .clip => !(look masks src).getLsbD 3
      | .alertEnd => !(look masks src).getLsbD 4
      | .mixclip => !(look masks src).getLsbD 5
      | .switchDone => !(look masks src).getLsbD 6
      | _ => true
    let bit := match cond with
      | .stuck => 0 | .emerg => 1 | .keyfail => 2 | .loop => 3 | .lagloss => 4 | .clip => 5
      | .mayday => 0 | .maydayHeld => 1 | .alertEnd => 2 | .mixclip => 3
      | .restart => 0 | .switchAborted => 1 | .switchDone => 2
    (∀ n : Nat, n < 8 → (look t.exc src).getLsbD n = (decide (n = bit) || (look l.exc src).getLsbD n) ∧
      (look t.acc src).getLsbD n = (decide (n = bit) || (look l.acc src).getLsbD n)) ∧
    (∀ other : Source, other ≠ src → look t.exc other = look l.exc other ∧ look t.acc other = look l.acc other) ∧
    t.queue = (if counted = true ∧ src ∉ l.queue then l.queue ++ [src] else l.queue)) ∧
  (∀ (c : Settings) (l : Live), (recordRaised c l).raised = [] ∧
    recordRaised c l = (recordingOrder l.raised).foldl (record c.masks) { l with raised := [] }) ∧
  ∀ es : List (Source × Cond), (recordingOrder es).Perm es ∧
    (recordingOrder es).Pairwise (fun a b => a.1.val < b.1.val ∨ (a.1 = b.1 ∧ a.2.bit ≤ b.2.bit))

/-! ### Orders on ports -/

namespace Sys2Proof.Claims

open Sys2Proof.Machine

/-- Every field of a port record fits the bytes that carry it (R177). -/
abbrev Carriable (r : PortRec) : Prop :=
  r.keyUp < 65536 ∧ r.hang < 65536 ∧ r.talkLimit < 65536 ∧ r.confirm < 65536 ∧ r.debounce < 256

/-- A port record as SET PORT stores it: durations at the nearest limit, the fixed fields of a console port kept (R23,
R24). -/
def storedPort (p : Port) (r : PortRec) : PortRec :=
  if 16 ≤ p.val then
    { duplex := .full, rxlo := false, keyUp := 0, hang := min r.hang 5000, talkLimit := min r.talkLimit 600,
      confirm := 0, debounce := 0 }
  else
    { duplex := r.duplex, rxlo := r.rxlo, keyUp := min r.keyUp 1000, hang := min r.hang 5000,
      talkLimit := min r.talkLimit 600,
      confirm := if r.confirm = 0 then 0 else max 10 (min r.confirm 2000),
      debounce := min r.debounce 50 }

/-- A port's COR is ignored: it is keyed, and HALF or with RXLO on (R34). -/
abbrev Ignored (c : Settings) (l : Live) (p : Port) : Prop :=
  ((look l.tx p).state = .keying ∨ (look l.tx p).state = .onAir ∨ (look l.tx p).state = .hang) ∧
    ((look c.ports p).duplex = .half ∨ (look c.ports p).rxlo = true)

/-- The live state with a fresh debounce of a port's COR begun (R28). -/
def freshCor (p : Port) (l : Live) : Live :=
  l.setRx p { look l.rx p with
    cor := { (look l.rx p).cor with count := 0, fresh := true, run := false, due := none } }

/-- A debounce after ignoring has begun: a fresh debounce is abandoned, one by R27 goes on (R34, R35). -/
def corAsIgnoringBegins (d : Debounce) : Debounce :=
  if d.fresh then { d with count := 0, fresh := false, run := false, due := none } else d

end Sys2Proof.Claims

/-- SET PORT stores the record with its adjustments and answers it, CLAMPED where an adjustment was made; a change of
duplex or RXLO begins or ends COR ignoring on a keyed port at once, with the effects of R34 and R35, and no other change
touches the live state; a bad port, duplex or RXLO value is refused RANGE (R24, R25). The model's choices in it: the count
of a fresh debounce that is abandoned starts again at 0 (log entry 15), a settlement still to be taken is dropped as a
fresh debounce begins or is abandoned (log entry 29), and the idle test of a pending switch ends the order (`closeEvent`,
log entry 32). -/
def Obligations.SetPortStoresTheClampedRecord : Prop :=
  (∀ (p : Port) (carried : PortRec) (s : State), Carriable carried →
    let body := BitVec.ofNat 8 p.val :: portBytes carried
    Holds s 0x11 body →
    let stored := storedPort p carried
    let c := { s.cfg with ports := put s.cfg.ports p stored }
    let l := (catchUp s).live
    let code : Byte := if stored = carried then 0x00 else 0x02
    let answer := fun l' => withReply 0x11 code (portBytes stored) (withCore c (closeEvent c l') (catchUp s))
    ((Ignored s.cfg l p ↔ Ignored c l p) → Answers (.setPort body) s (answer l)) ∧
    (Ignored s.cfg l p → ¬ Ignored c l p → Answers (.setPort body) s (answer (freshCor p l))) ∧
    (¬ Ignored s.cfg l p → Ignored c l p → (look l.rx p).rx ≠ .active →
      Answers (.setPort body) s
        (answer (l.setRx p { look l.rx p with cor := corAsIgnoringBegins (look l.rx p).cor }))) ∧
    (¬ Ignored s.cfg l p → Ignored c l p → (look l.rx p).rx = .active →
      Answers (.setPort body) s
        (answer (release c p (l.setRx p
          { look l.rx p with rx := .quiet, talk := none, cor := corAsIgnoringBegins (look l.rx p).cor }))))) ∧
  ∀ (body : List Byte) (s : State), body.length = 12 →
    17 < (body.getD 0 0).toNat ∨ 1 < (body.getD 1 0).toNat ∨ 1 < (body.getD 2 0).toNat → Holds s 0x11 body →
    Refuses (.setPort body) 0x11 0x12 s

/-- CLEAR PORT takes a port out of RX_LOCKOUT with no release and a fresh debounce, which waits while its COR is ignored;
takes it out of FAULT to DORMANT, from where it keys by R67, and where that keying makes its COR ignored its fresh
debounce waits too; leaves a port in neither state as it was; and answers DONE in each case, or RANGE for a port above 17
(R35, R39, R67, R76). The model's choices in it: a settlement still to be taken is dropped as the fresh debounce begins
(log entry 29), the idle test of a pending switch ends the order (`closeEvent`, log entry 32), and those of a keying and
its hand-on, which statement KeyingFollowsTheFloors describes (entries 15, 16, 23). -/
def Obligations.ClearPortLiftsLockoutAndFault : Prop :=
  (∀ (p : Port) (s : State), Holds s 0x12 [BitVec.ofNat 8 p.val] →
    let l := (catchUp s).live
    let lifted := if (look l.rx p).rx = .lockout then l.setRx p { look l.rx p with rx := .quiet } else l
    let answer := fun l' => withReply 0x12 0x00 [] (withCore s.cfg (closeEvent s.cfg l') (catchUp s))
    ((look l.rx p).rx ≠ .lockout → (look l.tx p).state ≠ .fault →
      Answers (.clearPort [BitVec.ofNat 8 p.val]) s (answer l)) ∧
    ((look l.rx p).rx = .lockout → Ignored s.cfg l p →
      Answers (.clearPort [BitVec.ofNat 8 p.val]) s (answer lifted)) ∧
    ((look l.rx p).rx = .lockout → ¬ Ignored s.cfg l p → (look l.tx p).state ≠ .fault →
      Answers (.clearPort [BitVec.ofNat 8 p.val]) s (answer (freshCor p lifted))) ∧
    ((look l.rx p).rx ≠ .lockout → (look l.tx p).state = .fault →
      Answers (.clearPort [BitVec.ofNat 8 p.val]) s (answer (settleKeys s.cfg (l.setTx p TxPort.dormant)))) ∧
    ((look l.rx p).rx = .lockout → (look l.tx p).state = .fault →
      let keyed := settleKeys s.cfg (l.setTx p TxPort.dormant)
      let quiet := keyed.setRx p { look keyed.rx p with rx := .quiet }
      (Ignored s.cfg keyed p → Answers (.clearPort [BitVec.ofNat 8 p.val]) s (answer quiet)) ∧
        (¬ Ignored s.cfg keyed p → Answers (.clearPort [BitVec.ofNat 8 p.val]) s (answer (freshCor p quiet))))) ∧
  ∀ (b : Byte) (s : State), 17 < b.toNat → Holds s 0x12 [b] → Refuses (.clearPort [b]) 0x12 0x12 s

/-! ### Edits of the plan -/

namespace Sys2Proof.Claims

open Sys2Proof.Machine

/-- A member record as stored: no override on a console port, at most 1000 ms on a radio port (R3). -/
def storedMember (m : MemberRec) : MemberRec :=
  { m with keyUp := if 16 ≤ m.port.val then none else m.keyUp.map (fun ms => min ms 1000) }

/-- A patch record as stored (R10). -/
def storedRecord (r : PatchRec) : PatchRec :=
  { r with lanes := Vector.ofFn (fun n => (look r.lanes n).map storedMember) }

/-- An override can be carried in a member record: FFFFh stands for none (R176). -/
abbrev OverrideCarriable (lane : Option MemberRec) : Prop := ∀ m ∈ lane, ∀ ms ∈ m.keyUp, ms < 65535

/-- A port stands in a lane of a record, valid or not (R4). -/
abbrev StandsIn (r : PatchRec) (p : Port) : Prop := ∃ n : Lane, ∃ m ∈ look r.lanes n, m.port = p

/-- A protected port stands in a lane of a record (R7). -/
abbrev HasProtected (c : Settings) (r : PatchRec) : Prop := ∃ p, StandsIn r p ∧ look c.flags p = true

/-- A port stands in a lane of another valid patch of the bank (R8). -/
abbrev ElsewhereValid (c : Settings) (b : Bank) (q : Patch) (p : Port) : Prop :=
  ∃ r, r ≠ q ∧ (bankRecord c b r).valid = true ∧ StandsIn (bankRecord c b r) p

/-- A patch has a mayday, a pending mayday or an alert. -/
abbrev Overridden (l : Live) (q : Patch) : Prop :=
  (look l.ovr q).mayday ≠ none ∨ (look l.ovr q).latch ≠ none ∨ (ctxOf l q).source = .alert

/-- The idle test (R9). -/
abbrev Idle (c : Settings) (l : Live) (q : Patch) : Prop :=
  (activeRecord c l q).valid = false ∨
    ((ctxOf l q).floor = [] ∧ (∀ p : Port, reads l p q = false) ∧ ¬ Overridden l q)

/-- The settings with one record of a bank written. -/
def withRecord (c : Settings) (b : Bank) (q : Patch) (r : PatchRec) : Settings :=
  { c with banks := put c.banks b (put (look c.banks b) q r) }

/-- The claimants a record gives: its TALK members that are RX_ACTIVE (R10, R57). -/
def freshClaimants (c : Settings) (l : Live) (q : Patch) : List Port :=
  allPorts.filter (fun p => talkMember c l q p && decide ((look l.rx p).rx = .active))

/-- The one port of a list with the lowest arbitration key, rank × 32 + port number, as a floor (R42). -/
def IsSelected (c : Settings) (l : Live) (q : Patch) (among : List Port) (floor : List Port) : Prop :=
  (among = [] ∧ floor = []) ∨
    ∃ p ∈ among, floor = [p] ∧ ∀ r ∈ among, 32 * rankIn c l q p + p.val ≤ 32 * rankIn c l q r + r.val

/-- A patch started afresh from its ACTIVE record: restriction NONE, source RECEIVE, not freezing, the record's mode, in
SINGLE the holder that selection over the record's claimants gives (R44, R57). `before` is the state whose receive
machines are asked. -/
def StartedFresh (c : Settings) (before after : Live) (q : Patch) : Prop :=
  (ctxOf after q).mode = (activeRecord c after q).mode ∧ (ctxOf after q).restriction = none ∧
    (ctxOf after q).source = .receive ∧ (look after.fla q).freezing = false ∧
    look after.rings q = { store := [], head := (look before.rings q).head } ∧
    ((activeRecord c after q).valid = false → (ctxOf after q).floor = [] ∧ claimantsOf after q = [])

/-- What no edit, event of a port or switch touches: the overrides, the lamps, the guest resource, the cadence
generator (R20, R125). -/
def OverridesKept (before after : Live) : Prop :=
  after.ovr = before.ovr ∧ after.lamps = before.lamps ∧ after.guestHolder = before.guestHolder ∧
    after.guestQueue = before.guestQueue ∧ after.gen = before.gen

/-- The transmit machines already follow floors and plan: none has anything to do (R67, R70, R72). -/
abbrev Following (c : Settings) (l : Live) : Prop := ∀ r : Port, syncPort c l r = l

/-- A port as it has just keyed on the ring of `q` (R67, R68, R74): KEYING with its cursor at the head and no end mark;
the key-up of its member record or its own, a guest's its own; the key-confirm timer loaded unless the setting is 0. A
duration of 0 frames is held as a count of 1 (log entry 23). -/
def keyedAtHead (c : Settings) (l : Live) (q : Patch) (p : Port) : TxPort :=
  let own := (look c.ports p).keyUp
  let keyUp := match memberIn c l q p with
    | some m => if 16 ≤ p.val ∧ l.guestHolder = some q then own else m.keyUp.getD own
    | none => own
  { state := .keying
    reader := some { ring := q, cursor := (look l.rings q).head, endMark := none }
    keyUp := some (max 1 (8 * keyUp))
    hang := none
    confirm := if (look c.ports p).confirm = 0 then none else some (max 1 (8 * (look c.ports p).confirm))
    hangDue := false
    sample := 0 }

/-- The receive side of a port as it keys: where its settings make its COR ignored, RX_ACTIVE drops to RX_QUIET with its
talk-time timer stopped and a fresh debounce is abandoned; else it stays (R34, R35). -/
def rxAsKeyed (c : Settings) (p : Port) (x : RxPort) : RxPort :=
  if (look c.ports p).duplex = .half ∨ (look c.ports p).rxlo = true then
    { x with
      rx := if x.rx = .active then .quiet else x.rx
      talk := if x.rx = .active then none else x.talk
      cor := corAsIgnoringBegins x.cor }
  else x

/-- The transmit machine of a port that was DORMANT, now that floors and plan are as in `after` (R67): keyed at the head
of the ring it is entitled to if its writer is active, else DORMANT. -/
def KeyedOrDormant (c : Settings) (after : Live) (p : Port) (dormant : TxPort) : Prop :=
  (∀ q, entitledRing c after p = some q → writerActive after q = true → look after.tx p = keyedAtHead c after q p) ∧
    ((∀ q, entitledRing c after p = some q → writerActive after q = false) → look after.tx p = dormant)

/-- The transmit machine of a port has followed a change of floors from `before` to `after`. One in FAULT stays. A
DORMANT one keys at the head of the ring it is entitled to if its writer is active, and stays otherwise (R67). A reader
that has come on the floor of the patch it read is unkeyed (R50). One that is entitled to its ring carries no end mark
(R70), and in HANG under an active writer it is ON_AIR again at the head (R72); one that is not entitled keeps its end
mark, or has the head as its new one (R70). -/
def FollowsAt (c : Settings) (before after : Live) (p : Port) : Prop :=
  let x := look before.tx p
  let y := look after.tx p
  (x.state = .fault → y = x) ∧
  (x.state = .dormant → KeyedOrDormant c after p x) ∧
  ∀ z ∈ x.reader, keyed x = true →
    let head := (look after.rings z.ring).head
    let talks := p ∈ (ctxOf after z.ring).floor
    let returns := x.state = .hang ∧ writerActive after z.ring = true
    (talks → KeyedOrDormant c after p TxPort.dormant) ∧
    (¬ talks → entitled c after p z.ring = true → returns →
      y = { x with state := .onAir, hang := none, reader := some { z with cursor := head, endMark := none } }) ∧
    (¬ talks → entitled c after p z.ring = true → ¬ returns → y = { x with reader := some { z with endMark := none } }) ∧
    (¬ talks → entitled c after p z.ring = false →
      y = { x with reader := some { z with endMark := some (z.endMark.getD head) } })

/-- The transmit machines of a patch's DORMANT LISTEN members once its floor is taken: each that is off the floor has keyed
at the head, but for a console while a patch holds the guest resource (R51, R67). -/
def ListenersKeyed (c : Settings) (before after : Live) (q : Patch) : Prop :=
  ∀ r : Port, (look before.tx r).state = .dormant → listenMember c after q r = true →
    r.val < 16 ∨ before.guestHolder = none → (ctxOf after q).source = .receive → (ctxOf after q).floor ≠ [] →
    r ∉ (ctxOf after q).floor → look after.tx r = keyedAtHead c after q r

/-- Claims that no keying has released: the ports of a list whose receive state is the one they had (R34, R49). -/
def unreleased (before after : Live) (ports : List Port) : List Port :=
  ports.filter (fun y => decide ((look after.rx y).rx = (look before.rx y).rx))

/-- Receive machines that only keyings touch: emergency level, receive state and talk-time timer stay, but for a port
that is keyed now with its COR ignored, which RX_ACTIVE has left for RX_QUIET with its talk-time timer stopped (R30, R34,
R126); the debounce of a port that is DORMANT before and after stays too. -/
def ReceiveKept (c : Settings) (before after : Live) : Prop :=
  ∀ p : Port,
    let x := look before.rx p
    let y := look after.rx p
    y.emg = x.emg ∧
    ((y.rx = x.rx ∧ y.talk = x.talk) ∨ (x.rx = .active ∧ y.rx = .quiet ∧ y.talk = none ∧ Ignored c after p)) ∧
    ((look before.tx p).state = .dormant → (look after.tx p).state = .dormant → y = x)

/-- A patch that an event touches only by keyings: its context but for the floor and its freezing flag stay; its claimants
stay but for those that a keying has made release (R34); its floor stays too, but in a MIX patch that grants, where a
claim has been released so, it is the four lowest claimants left (R48; log entry 16). -/
def ClaimsReleased (c : Settings) (before after : Live) (r : Patch) : Prop :=
  let kept := claimantsOf after r = claimantsOf before r
  let selects := (ctxOf before r).mode = .mix ∧ (ctxOf before r).source = .receive ∧ (look before.fla r).freezing = false
  ctxOf after r = { ctxOf before r with floor := (ctxOf after r).floor } ∧
  (look after.fla r).freezing = (look before.fla r).freezing ∧
  claimantsOf after r = unreleased before after (claimantsOf before r) ∧
  (kept ∨ ¬ selects → (ctxOf after r).floor = (ctxOf before r).floor) ∧
  (¬ kept → selects → (ctxOf after r).floor = fourLowest c after r)

/-- The premises under which it is said how the transmit machines follow: the laws of plan, settings, claimants and
grants, no port in RX_ACTIVE with its COR ignored, and that none has anything left to do. -/
def FollowPremises (c : Settings) (l : Live) : Prop :=
  PlanLaw c ∧ SettingsLaw c ∧ ClaimLaw c l ∧ GrantLaw l ∧ IgnoredLaw c l ∧ Following c l

/-- The order is carried out with this reply and these settings, and leaves a live state with a property. -/
def CarriesOut (i : Instr) (s base : State) (kind code : Byte) (data : List Byte) (c : Settings) (P : Live → Prop) :
    Prop :=
  ∃ l, Answers i s (withReply kind code data (withCore c l base)) ∧ P l

end Sys2Proof.Claims

/-- DEFINE PATCH: the refusals in their order; in the STANDBY bank the write alone; in the ACTIVE bank a live DEFINE, which
starts the patch afresh under the new record, takes a port in FAULT that stood in the old record and not in the new one
to DORMANT, from where it may key at once, and keeps one that stands in both records; the claimants are the new record's
TALK members in RX_ACTIVE, but for one that a keying has made release; the floor is in SINGLE the claimant of the new
record that selection gives, in MIX its four lowest claimants. From a lawful state every DORMANT LISTEN member keys at the
head once the floor is taken, every other port follows the floors, receive machines are touched by keyings alone, and the
other patches keep floor and claimants, but for the claim of a port freed from FAULT that keys there with its COR ignored,
after whose release a MIX patch has its four lowest claimants as talkers (R3, R6 to R10, R34, R45, R48 to R50, R58, R67, R70, R72, R76). The model's
readings in it: the order is answered once the ring work of its frame is done (log entry 6); a claim released by a keying
makes a MIX patch select again (entry 16); a key-up of 0 is held as a count of 1 (entry 23); what becomes of the count and
of an untaken settlement of a fresh debounce abandoned by a keying (entries 15, 29); and a port in FAULT leaves it also
where the old record was not valid and the port stays a member of another valid patch (R10, where R76 reads otherwise;
entry 37). -/
def Obligations.DefinePatchWritesTheRecord : Prop :=
  (∀ (sel : Byte) (q : Patch) (carried : PatchRec) (s : State), sel.toNat < 2 →
    (∀ n : Lane, OverrideCarriable (look carried.lanes n)) →
    let body := [sel, BitVec.ofNat 8 q.val] ++ recordBytes carried
    let i := Instr.definePatch body
    Holds s 0x21 body →
    let u := atOrder i s
    let b := bankOf s.live sel
    let old := bankRecord s.cfg b q
    let new := storedRecord carried
    let c := withRecord s.cfg b q new
    let code : Byte := if new = carried then 0x00 else 0x02
    let isProtected := sel = 0 ∧ (HasProtected s.cfg old ∨ HasProtected s.cfg new)
    let isBusy := sel = 0 ∧ ¬ Idle s.cfg u.live q
    let conflicts := (∃ n k : Lane, n ≠ k ∧ ∃ m ∈ look new.lanes n, ∃ o ∈ look new.lanes k, m.port = o.port) ∨
      (new.valid = true ∧ ∃ p, StandsIn new p ∧ ElsewhereValid s.cfg b q p)
    (s.live.switch.state = .pending → Answers i s (withReply 0x21 0x13 [] u)) ∧
    (s.live.switch.state = .none → isProtected → Answers i s (withReply 0x21 0x15 [] u)) ∧
    (s.live.switch.state = .none → ¬ isProtected → isBusy → Answers i s (withReply 0x21 0x18 [] u)) ∧
    (s.live.switch.state = .none → ¬ isProtected → ¬ isBusy → conflicts → Answers i s (withReply 0x21 0x19 [] u)) ∧
    (s.live.switch.state = .none → ¬ isProtected → ¬ isBusy → ¬ conflicts → sel ≠ 0 →
      Answers i s (withReply 0x21 code [] (withCore c u.live u))) ∧
    (s.live.switch.state = .none → ¬ isProtected → ¬ isBusy → ¬ conflicts → sel = 0 →
      CarriesOut i s u 0x21 code [] c (fun l => l.active = s.live.active ∧
        StartedFresh c u.live l q ∧ OverridesKept u.live l ∧
        (new.mode = .single → IsSelected c l q (freshClaimants c u.live q) (ctxOf l q).floor) ∧
        (PlanLaw s.cfg → SettingsLaw s.cfg → new.mode = .mix →
          (ctxOf l q).floor = fourLowest c (l.setClaimants q (freshClaimants c u.live q)) q) ∧
        (∀ r : Patch, r ≠ q → look l.rings r = look u.live.rings r) ∧
        (∀ p : Port, (look u.live.tx p).state = .fault → StandsIn old p → ¬ StandsIn new p →
          (look l.tx p).state = .dormant ∨ (look l.tx p).state = .keying) ∧
        (∀ p : Port, (look u.live.tx p).state = .fault → StandsIn new p → (look l.tx p).state = .fault) ∧
        claimantsOf l q = unreleased u.live l (freshClaimants c u.live q) ∧
        (FollowPremises s.cfg u.live → ReceiveKept c u.live l ∧ ListenersKeyed c u.live l q ∧
          (∀ r : Patch, r ≠ q → ClaimsReleased c u.live l r) ∧
          ∀ p : Port,
            let freed := (look u.live.tx p).state = .fault ∧ StandsIn old p ∧ ¬ StandsIn new p
            (freed → KeyedOrDormant c l p TxPort.dormant ∧
              ((look l.tx p).state = .keying → look l.rx p = rxAsKeyed c p (look u.live.rx p))) ∧
              (¬ freed → reads u.live p q = false → FollowsAt c u.live l p))))) ∧
  ∀ (body : List Byte) (s : State), body.length = 51 →
    1 < (body.getD 0 0).toNat ∨ 7 < (body.getD 1 0).toNat ∨
      (∃ n : Lane, (body.getD (3 + 6 * n.val) 0).getLsbD 7 = true ∧
        (17 < (body.getD (3 + 6 * n.val) 0).toNat % 32 ∨ 15 < (body.getD (4 + 6 * n.val) 0).toNat)) →
    Holds s 0x21 body → Answers (.definePatch body) s (withReply 0x21 0x12 [] (atOrder (.definePatch body) s))

namespace Sys2Proof.Claims

open Sys2Proof.Machine

/-- A lane gives a port TALK. -/
def talkOf (lane : Option MemberRec) (p : Port) : Bool := lane.any (fun m => decide (m.port = p) && m.talk)

/-- A lane gives a port LISTEN. -/
def listenOf (lane : Option MemberRec) (p : Port) : Bool := lane.any (fun m => decide (m.port = p) && m.listen)

/-- A lane names a port. -/
def names (lane : Option MemberRec) (p : Port) : Bool := lane.any (fun m => decide (m.port = p))

/-- The lane keeps its port and its rights: a change of fields only (R15). -/
abbrev FieldsOnly (old new : Option MemberRec) : Prop :=
  ∃ m ∈ old, ∃ o ∈ new, o.port = m.port ∧ o.listen = m.listen ∧ o.talk = m.talk

/-- The lane keeps its port with another rank (R18). -/
abbrev RankChanged (old new : Option MemberRec) : Prop := ∃ m ∈ old, ∃ o ∈ new, o.port = m.port ∧ o.rank ≠ m.rank

/-- The port that an edit makes a claimant: it gains TALK and is RX_ACTIVE (R17). -/
def claimsByEdit (old new : Option MemberRec) (l : Live) (p : Port) : Bool :=
  !talkOf old p && talkOf new p && decide ((look l.rx p).rx = .active)

/-- The claimants that the arbitration of an edit is made over: without the port that loses TALK, with the one that gains
it and is RX_ACTIVE (R16, R17). -/
def editedClaimants (old new : Option MemberRec) (l : Live) (q : Patch) : List Port :=
  allPorts.filter (fun p =>
    ((claimantsOf l q).contains p && !(talkOf old p && !talkOf new p)) || claimsByEdit old new l p)

/-- What an edit leaves of a floor: without the port that loses TALK (R16). -/
def floorLeft (old new : Option MemberRec) (l : Live) (q : Patch) : List Port :=
  (ctxOf l q).floor.filter (fun p => !(talkOf old p && !talkOf new p))

/-- An edit of rights arbitrates once: a place was freed, a claimant added, or the rank changed with the rights (R15,
R18, R58; log entry 30). -/
abbrev Arbitrates (old new : Option MemberRec) (l : Live) (q : Patch) : Prop :=
  floorLeft old new l q ≠ (ctxOf l q).floor ∨ (∃ p, claimsByEdit old new l p = true) ∨ RankChanged old new

/-- The port that an edit takes its lane or LISTEN from (R16). -/
abbrev StopsListening (old new : Option MemberRec) (p : Port) : Prop :=
  names old p = true ∧ (names new p = false ∨ (listenOf old p = true ∧ listenOf new p = false))

/-- The floor after an edit of rights (R15 to R18, R45, R46, R48, R58): in SINGLE as it was where there is no arbitration;
a free floor goes to the claimant selected, and a holder is preempted by the new claimant alone, at strictly lower rank;
in MIX it is the four lowest claimants, where there is no arbitration as it was, unless the keying of an added listener
has released a claim (R48; log entry 16). `c` holds the lane as written. -/
def EditedFloor (c : Settings) (q : Patch) (old new : Option MemberRec) (before after : Live) : Prop :=
  let left := floorLeft old new before q
  let among := editedClaimants old new before q
  ((ctxOf before q).mode = .single → ¬ Arbitrates old new before q → (ctxOf after q).floor = (ctxOf before q).floor) ∧
  ((ctxOf before q).mode = .single → Arbitrates old new before q → left = [] →
    IsSelected c after q among (ctxOf after q).floor) ∧
  (∀ h, (ctxOf before q).mode = .single → left = [h] →
    (∀ p, claimsByEdit old new before p = true →
      (ctxOf after q).floor = (if rankIn c after q p < rankIn c after q h then [p] else [h])) ∧
    ((∀ p, claimsByEdit old new before p = false) → (ctxOf after q).floor = [h])) ∧
  ((ctxOf before q).mode = .mix → Arbitrates old new before q →
    (ctxOf after q).floor = fourLowest c (before.setClaimants q among) q) ∧
  ((ctxOf before q).mode = .mix → ¬ Arbitrates old new before q →
    ((∀ p ∈ among, p ∈ claimantsOf after q) → (ctxOf after q).floor = (ctxOf before q).floor) ∧
      ((∃ p ∈ among, p ∉ claimantsOf after q) → (ctxOf after q).floor = fourLowest c after q))

/-- The claimants after an edit of rights: those it arbitrated over, but for one that has been keyed as a listener and
has its COR ignored, which has released and is RX_QUIET (R17). -/
def EditedClaims (c : Settings) (q : Patch) (old new : Option MemberRec) (before after : Live) : Prop :=
  (∀ p ∈ claimantsOf after q, p ∈ editedClaimants old new before q) ∧
  ∀ p ∈ editedClaimants old new before q,
    (p ∈ claimantsOf after q ∧ (look after.rx p).rx = (look before.rx p).rx) ∨
      (p ∉ (ctxOf after q).floor ∧ (look after.rx p).rx = .quiet ∧ (look after.rx p).talk = none ∧ Ignored c after p)

/-- The transmit machine of a port that an edit takes LISTEN or its lane from, or gives LISTEN (R16, R17): the one reads
the ring no more and is not in FAULT; the other keys at the head with its override or its own key-up if it was DORMANT
and the floor after the arbitration is not empty and not its own, and stays DORMANT otherwise; in FAULT it stays there;
a console is not keyed by its own patch while another holds the guest resource. -/
def EditedListener (c : Settings) (q : Patch) (old new : Option MemberRec) (before after : Live) : Prop :=
  (∀ p : Port, StopsListening old new p →
    p.val < 16 ∨ before.guestHolder = none → reads after p q = false ∧ (look after.tx p).state ≠ .fault) ∧
  ∀ m ∈ new, m.listen = true → listenOf old m.port = false →
    ((look before.tx m.port).state = .fault → (look after.tx m.port).state = .fault) ∧
    (m.port.val < 16 ∨ before.guestHolder = none → (look before.tx m.port).state = .dormant →
      ((ctxOf after q).floor ≠ [] → m.port ∉ (ctxOf after q).floor →
        (look after.tx m.port).state = .keying ∧
        (look after.tx m.port).reader =
          some { ring := q, cursor := (look before.rings q).head, endMark := none } ∧
        (look after.tx m.port).keyUp = some (max 1 (8 * m.keyUp.getD (look c.ports m.port).keyUp)) ∧
        (look after.tx m.port).confirm =
          (if (look c.ports m.port).confirm = 0 then none else some (max 1 (8 * (look c.ports m.port).confirm)))) ∧
      ((ctxOf after q).floor = [] ∨ m.port ∈ (ctxOf after q).floor → (look after.tx m.port).state = .dormant)) ∧
    (16 ≤ m.port.val → before.guestHolder ≠ none → before.guestHolder ≠ some q → reads before m.port q = false →
      reads after m.port q = false)

end Sys2Proof.Claims

/-- SET MEMBER: the refusals in their order; one lane written; no further effect in the STANDBY bank, on an invalid patch,
where the lane keeps its content, or on the live state where it changes fields only; on a valid ACTIVE patch a change of
rights is a live edit, in an empty or an occupied lane: removals, the added claimant, one arbitration, the keying of an
added listener. From a lawful state the transmit machines of all ports but one that the edit takes its lane or LISTEN
from follow the edited floor, and the other patches keep floor and claimants (R3, R6 to R8, R11, R15 to R18, R34, R50,
R51, R58, R67, R70, R72). The model's choices in it: the order is answered once the ring work of its frame is done (log
entry 6), an empty lane is answered as six bytes of 0 (log entry 14), a claim released by a keying makes a MIX patch select
again (log entry 16), a key-up of 0 is held as a count of 1 (log entry 23), a live edit preempts for the claimant it adds
alone (log entry 27), and a rank changed together with a right arbitrates (log entry 30). -/
def Obligations.SetMemberEditsOneLane : Prop :=
  (∀ (sel : Byte) (q : Patch) (n : Lane) (carried : Option MemberRec) (s : State), sel.toNat < 2 →
    OverrideCarriable carried →
    let body := [sel, BitVec.ofNat 8 q.val, BitVec.ofNat 8 n.val] ++ laneBytes carried
    let i := Instr.setMember body
    Holds s 0x22 body →
    let u := atOrder i s
    let b := bankOf s.live sel
    let rec0 := bankRecord s.cfg b q
    let old := look rec0.lanes n
    let new := carried.map storedMember
    let c := withRecord s.cfg b q { rec0 with lanes := put rec0.lanes n new }
    let code : Byte := if new = carried then 0x00 else 0x02
    let isProtected := sel = 0 ∧ (HasProtected s.cfg rec0 ∨ ∃ m ∈ new, look s.cfg.flags m.port = true)
    let isOverridden := sel = 0 ∧ Overridden u.live q
    let conflicts := ∃ m ∈ new,
      ((∃ k : Lane, k ≠ n ∧ ∃ o ∈ look rec0.lanes k, o.port = m.port) ∨
        (rec0.valid = true ∧ ElsewhereValid s.cfg b q m.port))
    (s.live.switch.state = .pending → Answers i s (withReply 0x22 0x13 [] u)) ∧
    (s.live.switch.state = .none → isProtected → Answers i s (withReply 0x22 0x15 [] u)) ∧
    (s.live.switch.state = .none → ¬ isProtected → isOverridden → Answers i s (withReply 0x22 0x17 [] u)) ∧
    (s.live.switch.state = .none → ¬ isProtected → ¬ isOverridden → conflicts →
      Answers i s (withReply 0x22 0x19 [] u)) ∧
    (s.live.switch.state = .none → ¬ isProtected → ¬ isOverridden → ¬ conflicts →
      sel ≠ 0 ∨ rec0.valid = false ∨ old = new →
      Answers i s (withReply 0x22 code (laneBytes new) (withCore c u.live u))) ∧
    (s.live.switch.state = .none → ¬ isProtected → ¬ isOverridden → ¬ conflicts →
      sel = 0 → rec0.valid = true → old ≠ new → FieldsOnly old new →
      Answers i s (withReply 0x22 code (laneBytes new) (withCore c (recordRaised c u.live) u))) ∧
    (s.live.switch.state = .none → ¬ isProtected → ¬ isOverridden → ¬ conflicts →
      sel = 0 → rec0.valid = true → old ≠ new → ¬ FieldsOnly old new →
      CarriesOut i s u 0x22 code (laneBytes new) c (fun l =>
        OverridesKept u.live l ∧ l.rings = u.live.rings ∧ l.active = u.live.active ∧
        (∀ r : Patch, (ctxOf l r).mode = (ctxOf u.live r).mode ∧
          (ctxOf l r).restriction = (ctxOf u.live r).restriction ∧ (ctxOf l r).source = (ctxOf u.live r).source) ∧
        (PlanLaw s.cfg → SettingsLaw s.cfg → FloorLaw u.live → GrantLaw u.live → ClaimLaw s.cfg u.live →
          (ctxOf u.live q).restriction = none → (look u.live.fla q).freezing = false →
          EditedFloor c q old new u.live l ∧ EditedClaims c q old new u.live l ∧
            EditedListener c q old new u.live l) ∧
        (FollowPremises s.cfg u.live → FloorLaw u.live →
          (ctxOf u.live q).restriction = none → (look u.live.fla q).freezing = false →
          (∀ r : Patch, r ≠ q → look l.fla r = look u.live.fla r) ∧
          ∀ p : Port, ¬ StopsListening old new p → FollowsAt c u.live l p)))) ∧
  ∀ (body : List Byte) (s : State), body.length = 9 →
    1 < (body.getD 0 0).toNat ∨ 7 < (body.getD 1 0).toNat ∨ 7 < (body.getD 2 0).toNat ∨
      ((body.getD 3 0).getLsbD 7 = true ∧ (17 < (body.getD 3 0).toNat % 32 ∨ 15 < (body.getD 4 0).toNat)) →
    Holds s 0x22 body → Answers (.setMember body) s (withReply 0x22 0x12 [] (atOrder (.setMember body) s))

/-- DELETE PATCH leaves the record in the cleared form; in the ACTIVE bank it is refused PROTECTED or BUSY, and else the
patch has no floor and no claimant, its ring is flushed, its ports in FAULT leave it, and every other port keeps its
transmit machine as it was, so that no reader is unkeyed (R6, R7, R12). -/
def Obligations.DeletePatchClearsTheRecord : Prop :=
  (∀ (sel : Byte) (q : Patch) (s : State), sel.toNat < 2 → Holds s 0x23 [sel, BitVec.ofNat 8 q.val] →
    let i := Instr.deletePatch [sel, BitVec.ofNat 8 q.val]
    let u := catchUp s
    let b := bankOf s.live sel
    let old := bankRecord s.cfg b q
    let c := withRecord s.cfg b q { valid := false, mode := .single, lanes := Vector.replicate 8 none }
    (s.live.switch.state = .pending → Refuses i 0x23 0x13 s) ∧
    (s.live.switch.state = .none → sel = 0 → HasProtected s.cfg old → Refuses i 0x23 0x15 s) ∧
    (s.live.switch.state = .none → sel = 0 → ¬ HasProtected s.cfg old → ¬ Idle s.cfg u.live q →
      Refuses i 0x23 0x18 s) ∧
    (s.live.switch.state = .none → sel ≠ 0 → Answers i s (withReply 0x23 0x00 [] (withCore c u.live u))) ∧
    (s.live.switch.state = .none → sel = 0 → ¬ HasProtected s.cfg old → Idle s.cfg u.live q → old.valid = true →
      CarriesOut i s u 0x23 0x00 [] c (fun l => StartedFresh c u.live l q ∧ OverridesKept u.live l ∧
        l.active = u.live.active ∧ (∀ p : Port, (look l.rx p).rx = (look u.live.rx p).rx) ∧
        (∀ p : Port, (look u.live.tx p).state = .fault → StandsIn old p → (look l.tx p).state = .dormant) ∧
        (∀ p : Port, (look u.live.tx p).state ≠ .fault ∨ ¬ StandsIn old p → look l.tx p = look u.live.tx p) ∧
        (∀ r : Patch, r ≠ q → look l.rings r = look u.live.rings r ∧ look l.fla r = look u.live.fla r))) ∧
    (s.live.switch.state = .none → sel = 0 → ¬ HasProtected s.cfg old → old.valid = false →
      Answers i s (withReply 0x23 0x00 [] (withCore c
        { u.live with fla := put u.live.fla q (FloorState.default .single) } u)))) ∧
  ∀ (sel b : Byte) (s : State), 1 < sel.toNat ∨ 7 < b.toNat → Holds s 0x23 [sel, b] →
    Refuses (.deletePatch [sel, b]) 0x23 0x12 s

namespace Sys2Proof.Claims

open Sys2Proof.Machine

/-- A bank of eight records in the cleared form (R2). -/
def emptyBank : Vector PatchRec 8 :=
  Vector.replicate 8 { valid := false, mode := .single, lanes := Vector.replicate 8 none }

end Sys2Proof.Claims

/-- CLEAR BANK leaves all eight records of the bank in the cleared form, or none: in the ACTIVE bank it is refused
PROTECTED for any protected port and BUSY unless all eight patches are idle, and else no patch has a floor or a claimant,
the ring of every patch that was valid is flushed, a port in FAULT that was a member of one goes to DORMANT, and every
other port keeps its transmit machine as it was (R6, R7, R12, R13, R76). -/
def Obligations.ClearBankClearsEveryRecord : Prop :=
  (∀ (sel : Byte) (s : State), sel.toNat < 2 → Holds s 0x24 [sel] →
    let i := Instr.clearBank [sel]
    let u := catchUp s
    let b := bankOf s.live sel
    let c := { s.cfg with banks := put s.cfg.banks b emptyBank }
    let isProtected := ∃ q : Patch, HasProtected s.cfg (bankRecord s.cfg b q)
    (s.live.switch.state = .pending → Refuses i 0x24 0x13 s) ∧
    (s.live.switch.state = .none → sel = 0 → isProtected → Refuses i 0x24 0x15 s) ∧
    (s.live.switch.state = .none → sel = 0 → ¬ isProtected → (∃ q : Patch, ¬ Idle s.cfg u.live q) →
      Refuses i 0x24 0x18 s) ∧
    (s.live.switch.state = .none → sel ≠ 0 → Answers i s (withReply 0x24 0x00 [] (withCore c u.live u))) ∧
    (s.live.switch.state = .none → sel = 0 → ¬ isProtected → (∀ q : Patch, Idle s.cfg u.live q) →
      CarriesOut i s u 0x24 0x00 [] c (fun l => OverridesKept u.live l ∧ l.active = u.live.active ∧
        (∀ q : Patch, look l.fla q = FloorState.default .single ∧
          ((bankRecord s.cfg b q).valid = true →
            look l.rings q = { store := [], head := (look u.live.rings q).head })) ∧
        (∀ (p : Port) (q : Patch), (look u.live.tx p).state = .fault → (bankRecord s.cfg b q).valid = true →
          StandsIn (bankRecord s.cfg b q) p → (look l.tx p).state = .dormant) ∧
        (∀ p : Port, (look u.live.tx p).state ≠ .fault ∨
            (∀ q : Patch, (bankRecord s.cfg b q).valid = true → ¬ StandsIn (bankRecord s.cfg b q) p) →
          look l.tx p = look u.live.tx p) ∧
        ∀ p : Port, (look l.rx p).rx = (look u.live.rx p).rx))) ∧
  ∀ (sel : Byte) (s : State), 1 < sel.toNat → Holds s 0x24 [sel] → Refuses (.clearBank [sel]) 0x24 0x12 s

/-! ### Plan switching -/

namespace Sys2Proof.Claims

open Sys2Proof.Machine

/-- The other of the two banks (R1). -/
def otherBank (b : Bank) : Bank := if b = 0 then 1 else 0

/-- The patches a switch ordered now involves: ACTIVE and STANDBY record not identical (R119). -/
def Involved (c : Settings) (l : Live) : List Patch :=
  allPatches.filter (fun q => decide (bankRecord c l.active q ≠ bankRecord c (otherBank l.active) q))

/-- A port stands in a record of an involved patch, in either bank (R119). -/
abbrev AffectedBy (c : Settings) (involved : List Patch) (p : Port) : Prop :=
  ∃ q ∈ involved, StandsIn (bankRecord c 0 q) p ∨ StandsIn (bankRecord c 1 q) p

/-- A port in FAULT is freed by a swap: affected, and a member of no valid patch that is not involved (R125 step 3). -/
abbrev FreedBySwap (c : Settings) (involved : List Patch) (before after : Live) (p : Port) : Prop :=
  (look before.tx p).state = .fault ∧ AffectedBy c involved p ∧ ∀ q : Patch, q ∉ involved → memberIn c after q p = none

/-- A swap of the banks (R125, R126): the indicator flips; the switch has ended with its outcome; involved patches start
afresh from their new ACTIVE records, with empty rings, with the claimants of the new record but for those that a keying
has made release, and with the floor that selection, in MIX the four lowest keys, gives among the claimants of the new
record (R45, R48, R57); other patches keep ring, freezing flag, mode, restriction and source; affected ports in FAULT go to
DORMANT, from where they may key, unless they are members of a valid patch that is not involved, where they stay as they
are, and other ports in FAULT stay; the overrides stay; SWITCH_DONE is recorded. From a lawful state (`FollowPremises`)
the other patches keep floor and claimants too; receive machines and talk-time timers are touched by keyings alone; and
every port that read no involved ring has followed the floors, every DORMANT LISTEN member of a new involved record whose
floor is taken keyed at the head (R50, R67, R70, R72). -/
def Swapped (c : Settings) (involved : List Patch) (outcome : LastOutcome) (before after : Live) : Prop :=
  after.active = otherBank before.active ∧
  after.switch = { state := .none, involved := [], grace := none, last := outcome, lastInvolved := involved } ∧
  (∀ q ∈ involved, StartedFresh c before after q) ∧
  (∀ q ∈ involved, claimantsOf after q =
    unreleased before after (freshClaimants c { before with active := after.active } q)) ∧
  (PlanLaw c → SettingsLaw c → ∀ q ∈ involved, (activeRecord c after q).mode = .single →
    IsSelected c after q (freshClaimants c { before with active := after.active } q) (ctxOf after q).floor) ∧
  (PlanLaw c → SettingsLaw c → ∀ q ∈ involved, (activeRecord c after q).mode = .mix →
    (ctxOf after q).floor =
      fourLowest c (after.setClaimants q (freshClaimants c { before with active := after.active } q)) q) ∧
  (∀ q : Patch, q ∉ involved → look after.rings q = look before.rings q ∧
    (look after.fla q).freezing = (look before.fla q).freezing ∧ (ctxOf after q).mode = (ctxOf before q).mode ∧
    (ctxOf after q).restriction = (ctxOf before q).restriction ∧ (ctxOf after q).source = (ctxOf before q).source) ∧
  (∀ p : Port, FreedBySwap c involved before after p → (look after.tx p).state ≠ .fault) ∧
  (∀ p : Port, (look before.tx p).state = .fault → ¬ AffectedBy c involved p → (look after.tx p).state = .fault) ∧
  (PlanLaw c → ∀ (p : Port) (q : Patch), (look before.tx p).state = .fault → q ∉ involved →
    memberIn c after q p ≠ none → look after.tx p = look before.tx p) ∧
  (FollowPremises c before → involved = Involved c before →
    ReceiveKept c before after ∧
    (∀ q : Patch, q ∉ involved → look after.fla q = look before.fla q) ∧
    (∀ q ∈ involved, ListenersKeyed c before after q) ∧
    ∀ p : Port, (FreedBySwap c involved before after p → KeyedOrDormant c after p TxPort.dormant) ∧
      (¬ FreedBySwap c involved before after p → (∀ q ∈ involved, reads before p q = false) →
        FollowsAt c before after p)) ∧
  OverridesKept before after ∧ (look after.exc 26).getLsbD 2 = true ∧ (look after.acc 26).getLsbD 2 = true

/-- Every reader of an involved patch has been unkeyed, with a fresh debounce begun where its COR was ignored; it may be
keyed afresh, as R67 has it under the new plan (R35, R67, R73, R124). -/
def ReadersCut (c : Settings) (involved : List Patch) (before after : Live) : Prop :=
  ∀ q ∈ involved, ∀ p : Port, reads before p q = true →
    ((look after.tx p).state = .dormant ∨ (look after.tx p).state = .keying) ∧
    (FollowPremises c before → involved = Involved c before → KeyedOrDormant c after p TxPort.dormant ∧
      ((look after.tx p).state = .dormant →
        look after.rx p = look (if Ignored c before p then freshCor p before else before).rx p))

/-- The outcome of a pending switch whose last involved patch becomes idle: FORCED where the grace timer's expiry is due in
the same frame and goes before the idle test, else DONE (R122, R123; log entry 38). -/
def idleOutcome (l : Live) : LastOutcome :=
  if l.switch.graceFirst = true ∧ l.switch.grace = some 0 then .forced else .done

/-- An event happens: it changes the live state alone, beside what came about at once before it, and leaves a live state
with a property. -/
def Happens (i : Instr) (s base : State) (P : Live → Prop) : Prop :=
  ∃ l, Answers i s (withCore base.cfg l base) ∧ P l

end Sys2Proof.Claims

/-- SWITCH PLAN (R119 to R121, R124 to R126): refused PENDING, PROTECTED, OVERRIDE in that order; with every involved
patch idle the swap at once; with grace 0 a forced switch; else the switch is pending, the involved patches freezing and
the grace timer loaded with min(grace, 30) seconds. The reply carries the involved set and the switch state; the status
is CLAMPED for a grace above 30. A swap gives each port its place in the new plan (R126): the claimants and floors of the
involved patches, the keying of their DORMANT entitled ports, receive machines and patches not involved as they were
(`Swapped`; R34, R50, R67, R70, R72). The model's readings in it: a claim released by a keying makes a MIX patch select
again (log entry 16), a key-up of 0 is held as a count of 1 (entry 23), and what becomes of the count and of an untaken
settlement of a fresh debounce abandoned by a keying (entries 15, 29). -/
def Obligations.SwitchPlanSwapsForcesOrWaits : Prop :=
  ∀ (g : Byte) (s : State), Holds s 0x30 [g] →
    let i := Instr.switchPlan [g]
    let u := catchUp s
    let c := s.cfg
    let involved := Involved c u.live
    let isProtected := ∃ p, AffectedBy c involved p ∧ look c.flags p = true
    let isOverridden := ∃ q ∈ involved, Overridden u.live q
    let allIdle := ∀ q ∈ involved, Idle c u.live q
    (s.live.switch.state = .pending → Refuses i 0x30 0x13 s) ∧
    (s.live.switch.state = .none → isProtected → Refuses i 0x30 0x15 s) ∧
    (s.live.switch.state = .none → ¬ isProtected → isOverridden → Refuses i 0x30 0x17 s) ∧
    (s.live.switch.state = .none → ¬ isProtected → ¬ isOverridden → allIdle →
      CarriesOut i s u 0x30 (if 30 < g.toNat then 0x02 else 0x00) [patchSetByte involved, 0] c
        (Swapped c involved .done u.live)) ∧
    (s.live.switch.state = .none → ¬ isProtected → ¬ isOverridden → ¬ allIdle → g = 0 →
      CarriesOut i s u 0x30 0x00 [patchSetByte involved, 0] c
        (fun l => Swapped c involved .forced u.live l ∧ ReadersCut c involved u.live l)) ∧
    (s.live.switch.state = .none → ¬ isProtected → ¬ isOverridden → ¬ allIdle → g ≠ 0 →
      Answers i s (withReply 0x30 (if 30 < g.toNat then 0x02 else 0x01) [patchSetByte involved, 1]
        (withCore c
          { u.live with
            fla := Vector.ofFn (fun q =>
              { look u.live.fla q with freezing := (look u.live.fla q).freezing || involved.contains q })
            switch :=
              { u.live.switch with
                state := .pending
                involved := involved
                grace := some (8000 * min g.toNat 30) } } u)))

/-- How a pending switch ends. An event or order ends with the idle test (`closeEvent`; that every one does is the model's
reading, log entry 32): with every involved patch idle the banks are swapped unforced, with outcome DONE, or FORCED where
the grace timer's expiry in the same frame is taken before the test, which then cuts nothing (`idleOutcome`; how the
sender says so is the model's choice, log entry 38); else the switch stays pending and the conditions raised are recorded,
no more; with no switch pending they are recorded alone. So a hang expiry after which every involved patch is idle swaps
the banks. At the expiry of the grace timer the switch is forced: every reader of an involved patch is unkeyed and the
banks are swapped. ABORT SWITCH with no
switch pending is refused STATE; else no patch freezes for it any more, the switch has ended aborted by order,
SWITCH_ABORTED is recorded, and banks, rings, overrides, modes, restrictions and sources stay; a free floor in SINGLE goes
to the claimant that selection gives, a holder keeps it unless claimants of strictly lower rank wait, of whom the lowest
key preempts, the floor in MIX is the four lowest claimants, and the transmit machines follow the floors. A swap gives
each port its place in the new plan (R126): the claimants and floors of the involved patches, the keying of their DORMANT
entitled ports, receive machines and patches not involved as they were (`Swapped`; R34, R50, R57, R67, R70, R72, R118,
R122 to R127). The model's readings in it: a claim released by a keying makes a MIX patch select again (log entry 16), a
key-up of 0 is held as a count of 1 (entry 23), and what becomes of the count and of an untaken settlement of a fresh
debounce abandoned by a keying (entries 15, 29). -/
def Obligations.PendingSwitchIsSwappedForcedOrAborted : Prop :=
  (∀ (c : Settings) (l : Live), l.switch.state = .pending → (∀ q ∈ l.switch.involved, Idle c l q) →
    Swapped c l.switch.involved (idleOutcome l) l (closeEvent c l)) ∧
  (∀ (c : Settings) (l : Live), l.switch.state = .none ∨ (∃ q ∈ l.switch.involved, ¬ Idle c l q) →
    closeEvent c l = recordRaised c l) ∧
  (∀ (p : Port) (s : State), s.live.switch.state = .pending → (look s.live.tx p).state = .hang →
    (look s.live.tx p).hang = some 0 →
    let l := hangUp p s.cfg (catchUp s).live
    (∀ q ∈ s.live.switch.involved, Idle s.cfg l q) →
    Happens (.hangExpiry p) s (catchUp s) (Swapped s.cfg s.live.switch.involved (idleOutcome s.live) l)) ∧
  (∀ s : State, s.live.switch.state = .pending → s.live.switch.grace = some 0 →
    Happens .graceTimerExpiry s (catchUp s) (fun l =>
      Swapped s.cfg s.live.switch.involved .forced (catchUp s).live l ∧
        ReadersCut s.cfg s.live.switch.involved (catchUp s).live l)) ∧
  ∀ s : State, Holds s 0x31 [] →
    (s.live.switch.state = .none → Refuses (.abortSwitch []) 0x31 0x1A s) ∧
    (s.live.switch.state = .pending →
      let u := catchUp s
      let involved := s.live.switch.involved
      CarriesOut (.abortSwitch []) s u 0x31 0x00 [] s.cfg (fun l =>
        l.active = s.live.active ∧ l.rings = s.live.rings ∧ OverridesKept u.live l ∧
        l.switch = { state := .none, involved := [], grace := none, last := .aborted .order, lastInvolved := involved } ∧
        (∀ q : Patch, (look l.fla q).freezing = ((look s.live.fla q).freezing && !involved.contains q) ∧
          (ctxOf l q).mode = (ctxOf s.live q).mode ∧ (ctxOf l q).restriction = (ctxOf s.live q).restriction ∧
          (ctxOf l q).source = (ctxOf s.live q).source) ∧
        (PlanLaw s.cfg → SettingsLaw s.cfg → ClaimLaw s.cfg s.live → ∀ q ∈ involved,
          (ctxOf s.live q) = { mode := .single, floor := [], restriction := none, source := .receive } →
          IsSelected s.cfg l q (claimantsOf s.live q) (ctxOf l q).floor) ∧
        (PlanLaw s.cfg → SettingsLaw s.cfg → ClaimLaw s.cfg s.live → Following s.cfg u.live → ∀ q ∈ involved,
          (ctxOf s.live q).restriction = none → (ctxOf s.live q).source = .receive →
          (∀ h, (ctxOf s.live q).mode = .single → (ctxOf s.live q).floor = [h] →
            let better := (claimantsOf s.live q).filter (fun p => rankIn s.cfg s.live q p < rankIn s.cfg s.live q h)
            (better = [] → (ctxOf l q).floor = [h]) ∧
              (better ≠ [] → IsSelected s.cfg s.live q better (ctxOf l q).floor)) ∧
          ((ctxOf s.live q).mode = .mix → (ctxOf l q).floor = fourLowest s.cfg s.live q)) ∧
        (PlanLaw s.cfg → SettingsLaw s.cfg → ClaimLaw s.cfg u.live → GrantLaw u.live → Following s.cfg u.live →
          ∀ p : Port, FollowsAt s.cfg u.live l p) ∧
        (look l.exc 26).getLsbD 1 = true ∧ (look l.acc 26).getLsbD 1 = true))

/-! ### Mayday -/

namespace Sys2Proof.Claims

open Sys2Proof.Machine

/-- The patch in which an emergency event of a port counts: its valid ACTIVE patch, if it has TALK there (R97). -/
abbrev TalksIn (c : Settings) (l : Live) (p : Port) (q : Patch) : Prop :=
  portPatch c l p = some q ∧ talkMember c l q p = true

/-- The overrides of every patch but one stay. -/
def OtherOverridesKept (q : Patch) (before after : Live) : Prop := ∀ r : Patch, r ≠ q → look after.ovr r = look before.ovr r

/-- The guest resource requested by a patch: it becomes the holder where there is none, else the last to wait (R107). -/
def GuestRequested (q : Patch) (before after : Live) : Prop :=
  (before.guestHolder = none → after.guestHolder = some q ∧ after.guestQueue = before.guestQueue) ∧
    (before.guestHolder ≠ none → after.guestHolder = before.guestHolder ∧
      after.guestQueue = before.guestQueue ++ [q])

/-- A console has been keyed as a guest on the ring of `q`: at its head with a key-up of 0, held as a count of 1 (R77,
R108, R110; log entry 23). -/
def GuestKeyed (l : Live) (q : Patch) (p : Port) : Prop :=
  look l.tx p =
    { state := .keying
      reader := some { ring := q, cursor := (look l.rings q).head, endMark := none }
      keyUp := some 1
      hang := none
      confirm := none
      hangDue := false
      sample := 0 }

/-- The consoles have been attached to the ring of `q` (R77, R108, R110): keyed as guests whether or not its writer is
active; DORMANT while `q` is under alert, and a console that holds the floor there or talks in it. A console in FAULT,
which no run reaches, is left out. -/
def ConsolesAttached (q : Patch) (before after : Live) : Prop :=
  ∀ p : Port, 16 ≤ p.val → (look before.tx p).state ≠ .fault →
    ((ctxOf after q).source = .receive → p ∉ (ctxOf after q).floor → GuestKeyed after q p) ∧
    ((ctxOf after q).source = .alert ∨ p ∈ (ctxOf after q).floor → (look after.tx p).state = .dormant)

/-- The laws of plan, settings, floors, switch, overrides and claimants together, the premises under which guest reading
and what alerts do to the readers are spoken of. -/
def GuestPremises (c : Settings) (l : Live) : Prop :=
  PlanLaw c ∧ SettingsLaw c ∧ FloorLaw l ∧ GrantLaw l ∧ SwitchLaw l ∧ PendingLaw c l ∧ OverrideLaw c l ∧ ClaimLaw c l

/-- The live state over which a mayday begins on `q` (R99, R128): a pending switch that involves the patch is aborted
first. -/
def maydayBase (c : Settings) (q : Patch) (before : Live) : Live :=
  if (look before.fla q).freezing then abort c .mayday before else before

/-- The transmit machine of a radio port has followed the restriction set on `q`. One that has lost its place on the floor
and was DORMANT keys at the head if it is a LISTEN member, its receive side as a keying leaves it, its claim released
where its COR is ignored now; that it does so too where the rearranged floor is empty is log entry 28. One that has lost
its place and was not DORMANT, or does not listen, stays as it was. Every other follows the floors (R50 to R52, R67). -/
def FollowsRestriction (c : Settings) (q : Patch) (before after : Live) (p : Port) : Prop :=
  let lost := p ∈ (ctxOf before q).floor ∧ p ∉ (ctxOf after q).floor
  let keys := (look before.tx p).state = .dormant ∧ listenMember c before q p = true
  (lost → keys → look after.tx p = keyedAtHead c before q p ∧ look after.rx p = rxAsKeyed c p (look before.rx p) ∧
    (Ignored c after p → p ∉ claimantsOf after q)) ∧
  (lost → ¬ keys → look after.tx p = look before.tx p) ∧
  (¬ lost → FollowsAt c before after p)

/-- A mayday of port `p` has begun on patch `q` (R99): the former context saved; mode SINGLE, restriction MAYDAY; the
floor that `maydayFloor` gives (statement RestoredFloorsKeepTheirHolders), over the floor that the aborted switch leaves
where one was pending, and so the mayday port on it if it claimed; the transmit machines of the radio ports following it,
those that lose their place among them (R51, R52; log entry 28 for an empty floor); the mayday port's talk-time timer
stopped, or its lockout lifted to RX_QUIET with a fresh debounce, which waits while its COR is ignored (R33, R35); its
lamp lit; the guest resource requested, and the consoles attached to the ring where it was free (R77, R107); MAYDAY
recorded and queued; a pending switch that involves the patch aborted (R128). -/
def MaydayBegun (c : Settings) (q : Patch) (p : Port) (before after : Live) : Prop :=
  (look after.ovr q).mayday = some p ∧ (look after.ovr q).latch = (look before.ovr q).latch ∧
  (look after.ovr q).save2 = (look before.ovr q).save2 ∧ (look after.ovr q).timer = (look before.ovr q).timer ∧
  ((look before.fla q).freezing = false → (ctxOf before q).restriction = none →
    (look after.ovr q).save1 = some (ctxOf before q)) ∧ (look after.ovr q).save1 ≠ none ∧
  OtherOverridesKept q before after ∧
  (ctxOf after q).mode = .single ∧ (ctxOf after q).restriction = some p ∧ (ctxOf after q).source = .receive ∧
  ((look before.fla q).freezing = false → (ctxOf before q).restriction = none → p ∈ claimantsOf before q →
    (ctxOf after q).floor = [p]) ∧
  (let thawed := maydayBase c q before
   ((ctxOf before q).restriction = none →
     (ctxOf after q).floor = maydayFloor c thawed q p (ctxOf thawed q).floor) ∧
   (GuestPremises c before → Following c before → ∀ r : Port, r.val < 16 →
     before.switch.state = .none ∨ (memberIn c before q r).isSome = true → FollowsRestriction c q thawed after r)) ∧
  (look after.fla q).freezing = false ∧ look after.rings q = look before.rings q ∧
  ((look before.rx p).rx = .active → (look after.rx p).talk = none) ∧ (look after.rx p).rx ≠ .lockout ∧
  (GuestPremises c before → (look before.rx p).rx = .lockout →
    look after.rx p = { look before.rx p with
      rx := .quiet
      cor := if Ignored c after p then
          if Ignored c before p then (look before.rx p).cor else corAsIgnoringBegins (look before.rx p).cor
        else (look (freshCor p before).rx p).cor }) ∧
  (∀ r : Port, look after.lamps r = (decide (r = p) || look before.lamps r)) ∧
  GuestRequested q before after ∧
  (GuestPremises c before → before.guestHolder = none → ConsolesAttached q before after) ∧
  (look after.exc (patchSource q)).getLsbD 0 = true ∧ patchSource q ∈ after.queue ∧
  ((look before.fla q).freezing = true → after.active = before.active ∧
    after.switch = { state := .none, involved := [], grace := none, last := .aborted .mayday,
                     lastInvolved := before.switch.involved })

end Sys2Proof.Claims

/-- DECLARE MAYDAY acts as an emergency event for the port: it begins a mayday (DONE), is latched under an alert
(ACCEPTED, MAYDAY_HELD recorded), or is refused STATE; a port above 17 is refused RANGE (R97, R98, R99). A mayday that
begins takes its port out of RX_LOCKOUT with a fresh debounce (R33), and the transmit machines follow the restricted
floor, the ports that lose their place keying as listeners (`MaydayBegun`; R50 to R52, R67). The model's readings in it:
the order ends with the idle test of a pending switch (`closeEvent`, log entry 32); a port that loses its place to the
restriction keys also where the floor is left empty (entry 28); a claim released by a keying makes a MIX patch select
again (entry 16); a key-up of 0 is held as a count of 1 (entry 23); and what becomes of the count and of an untaken
settlement of a debounce begun afresh or abandoned (entries 15, 29). -/
def Obligations.DeclareMaydayBeginsLatchesOrRefuses : Prop :=
  (∀ (p : Port) (s : State), Holds s 0x40 [BitVec.ofNat 8 p.val] →
    let i := Instr.declareMayday [BitVec.ofNat 8 p.val]
    let u := catchUp s
    let l := u.live
    ((∀ q, ¬ TalksIn s.cfg l p q) → Refuses i 0x40 0x1A s) ∧
    (∀ q, TalksIn s.cfg l p q → (look l.ovr q).mayday ≠ none → Refuses i 0x40 0x1A s) ∧
    (∀ q, TalksIn s.cfg l p q → (ctxOf l q).source = .alert → (look l.ovr q).latch ≠ none →
      Refuses i 0x40 0x1A s) ∧
    (∀ q, TalksIn s.cfg l p q → (look l.ovr q).mayday = none → (ctxOf l q).source = .alert →
      (look l.ovr q).latch = none →
      Answers i s (withReply 0x40 0x01 [] (withCore s.cfg (closeEvent s.cfg
        { l with
          ovr := put l.ovr q { look l.ovr q with latch := some p }
          raised := l.raised ++ [(patchSource q, .maydayHeld)] }) u))) ∧
    (∀ q, SwitchLaw l → TalksIn s.cfg l p q → (look l.ovr q).mayday = none → (ctxOf l q).source = .receive →
      CarriesOut i s u 0x40 0x00 [] s.cfg (MaydayBegun s.cfg q p l))) ∧
  ∀ (b : Byte) (s : State), 17 < b.toNat → Holds s 0x40 [b] → Refuses (.declareMayday [b]) 0x40 0x12 s

/-- An emergency rise sets the port's EMG level, which is handed to the Floor Arbiter (`emgRise`: statement
SingleFloorFollowsClaimsAndReleases says what a waiting claimant's rise does under MAYDAY), records EMERG on the port,
which is queued, and is an emergency event: it begins a mayday, is latched under an alert, or, for a port with no TALK in
a valid ACTIVE patch, on a patch that has a mayday, or under an alert with the latch full, does no more (R37, R54, R97,
R99, R116). A mayday that begins takes its port out of RX_LOCKOUT with a fresh debounce (R33), and the transmit machines
follow the restricted floor, the ports that lose their place keying as listeners (`MaydayBegun`; R50 to R52, R67). The
model's readings in it: the event ends with the idle test of a pending switch (`closeEvent`, log entry 32); a port that
loses its place to the restriction keys also where the floor is left empty (entry 28); a claim released by a keying makes
a MIX patch select again (entry 16); a key-up of 0 is held as a count of 1 (entry 23); and what becomes of the count and
of an untaken settlement of a debounce begun afresh or abandoned (entries 15, 29). -/
def Obligations.EmergencyRiseIsAnEmergencyEvent : Prop :=
  ∀ (p : Port) (s : State), (look s.live.rx p).emg.due = some true →
    let i := Instr.emergencyRise p
    let l := (catchUp s).live
    let risen : Live :=
      { l.setRx p { look l.rx p with
          emg := { level := true, count := 0, fresh := false, run := false, due := none } } with
        raised := l.raised ++ [(portSource p, .emerg)] }
    let noted := fun t : Live =>
      (look t.rx p).emg = { level := true, count := 0, fresh := false, run := false, due := none } ∧
        (look t.exc (portSource p)).getLsbD 1 = true ∧ portSource p ∈ t.queue
    ((∀ q, TalksIn s.cfg l p q → (look l.ovr q).mayday ≠ none ∨
        ((ctxOf l q).source = .alert ∧ (look l.ovr q).latch ≠ none)) →
      Answers i s (withCore s.cfg (closeEvent s.cfg (emgRise s.cfg p risen)) (catchUp s)) ∧
      Happens i s (catchUp s) (fun t => noted t ∧ t.ovr = l.ovr ∧ t.lamps = l.lamps ∧
        t.guestHolder = l.guestHolder ∧ t.guestQueue = l.guestQueue)) ∧
    (∀ q, TalksIn s.cfg l p q → (look l.ovr q).mayday = none → (ctxOf l q).source = .alert →
      (look l.ovr q).latch = none →
      Happens i s (catchUp s) (fun t => noted t ∧ look t.ovr q = { look l.ovr q with latch := some p } ∧
        OtherOverridesKept q l t ∧ t.lamps = l.lamps ∧ t.guestHolder = l.guestHolder ∧
        (look t.exc (patchSource q)).getLsbD 1 = true ∧ patchSource q ∈ t.queue)) ∧
    ∀ q, SwitchLaw l → TalksIn s.cfg l p q → (look l.ovr q).mayday = none → (ctxOf l q).source = .receive →
      Happens i s (catchUp s) (fun t => noted t ∧ MaydayBegun s.cfg q p risen t)

namespace Sys2Proof.Claims

open Sys2Proof.Machine

/-- A patch gives up the guest resource: the first that waits becomes holder, or nobody; one that only waits stops
waiting (R102, R108). -/
def GuestGivenUp (q : Patch) (before after : Live) : Prop :=
  (before.guestHolder = some q → before.guestQueue = [] → after.guestHolder = none ∧ after.guestQueue = []) ∧
  (∀ r rest, before.guestHolder = some q → before.guestQueue = r :: rest →
    after.guestHolder = some r ∧ after.guestQueue = rest) ∧
  (before.guestHolder ≠ some q → after.guestHolder = before.guestHolder ∧
    after.guestQueue = before.guestQueue.filter (fun r => r ≠ q))

/-- A console detached from the guest ring (R77, R108): keyed at the head of the ring of its own patch, with a key-up of 0
held as a count of 1 (log entry 23), if it is a LISTEN member there off the floor, that patch's source is RECEIVE and its
writer is active; else DORMANT. -/
def ConsoleDetached (c : Settings) (after : Live) (p : Port) : Prop :=
  let reading := fun r : Patch => listenMember c after r p = true ∧ (ctxOf after r).source = .receive ∧
    (ctxOf after r).floor ≠ [] ∧ p ∉ (ctxOf after r).floor
  (∀ r : Patch, reading r → GuestKeyed after r p) ∧ ((∀ r : Patch, ¬ reading r) → look after.tx p = TxPort.dormant)

/-- The mayday of port `p` on patch `q` has ended (R33, R102, R104): mode of the save back, restriction NONE; the floor is
the one that `rebuiltFloor` gives (statement RestoredFloorsKeepTheirHolders), so that a saved holder that still claims has
it again, but in MIX it is the four lowest of the claimants left where a keying that follows has released a claim (R48,
log entry 16); a full talk-time starts for the port if it is RX_ACTIVE; its lamp is
out; the transmit machines of the radio ports follow the restored floor (R50, R67, R70, R72), and a reader that the
rebuilt floor unkeys and that selection made again displaces keys afresh (R50, R51); the guest resource is given up, and the consoles move to the ring of the next holder, or are detached: each is then keyed at the head of the ring of
its own patch where it is entitled to it and the writer is active, and DORMANT otherwise (R77, R108). -/
def MaydayEnded (c : Settings) (q : Patch) (p : Port) (before after : Live) : Prop :=
  look after.ovr q = { look before.ovr q with save1 := none, mayday := none } ∧
  OtherOverridesKept q before after ∧
  (ctxOf after q).restriction = none ∧ (ctxOf after q).source = .receive ∧
  (∀ sv, (look before.ovr q).save1 = some sv → (ctxOf after q).mode = sv.mode ∧
    (sv.mode = .single ∨ claimantsOf after q = claimantsOf before q →
      (ctxOf after q).floor = rebuiltFloor c before q sv.mode sv.floor) ∧
    (GuestPremises c before → Following c before → sv.mode = .mix → claimantsOf after q ≠ claimantsOf before q →
      (ctxOf after q).floor = fourLowest c after q) ∧
    ∀ h, sv.mode = .single → sv.floor = [h] → h ∈ claimantsOf before q → (ctxOf after q).floor = [h]) ∧
  (∀ r : Port, look after.lamps r = (!decide (r = p) && look before.lamps r)) ∧
  look after.rings q = look before.rings q ∧
  ((look before.rx p).rx = .active → (look after.rx p).rx = .active →
    (∀ r, (look after.ovr r).mayday ≠ some p) →
    (look after.rx p).talk =
      (if (look c.ports p).talkLimit = 0 then none else some (8000 * (look c.ports p).talkLimit))) ∧
  GuestGivenUp q before after ∧
  (GuestPremises c before → ∀ r rest, before.guestHolder = some q → before.guestQueue = r :: rest →
    ConsolesAttached r before after) ∧
  (GuestPremises c before → PortLaw before → Following c before → ∀ sv, (look before.ovr q).save1 = some sv →
    ∀ r : Port, r.val < 16 → before.switch.state = .none ∨ (memberIn c before q r).isSome = true →
      let displaced := r ∈ rebuiltFloor c before q sv.mode sv.floor ∧ r ∉ (ctxOf after q).floor ∧ reads before r q = true
      (displaced → KeyedOrDormant c after r TxPort.dormant) ∧ (¬ displaced → FollowsAt c before after r)) ∧
  (GuestPremises c before → before.guestHolder = some q → before.guestQueue = [] →
    ∀ p : Port, 16 ≤ p.val → reads before p q = true → ConsoleDetached c after p) ∧
  (GuestPremises c before → PortLaw before → before.guestHolder = some q → before.guestQueue = [] →
    ∀ p : Port, 16 ≤ p.val → (look before.tx p).state = .dormant → ConsoleDetached c after p)

end Sys2Proof.Claims

/-- CLEAR MAYDAY is refused NESTED under an alert and STATE without a mayday; else it ends the mayday (R33, R102, R104),
the transmit machines of the radio ports follow the restored floor (R50, R67, R70, R72), and each console detached keys in
its own patch where it is entitled to the ring and the writer is active, and is DORMANT otherwise (R77, R108); a patch
above 7 is refused RANGE. The model's readings in it: a claim released by a keying makes a MIX patch select again, and a
reader displaced so from the floor that unkeyed it keys afresh (log entry 16; R50, R51); and a key-up of 0 is held as a
count of 1 (entry 23). -/
def Obligations.ClearMaydayEndsTheMayday : Prop :=
  (∀ (q : Patch) (s : State), Holds s 0x41 [BitVec.ofNat 8 q.val] →
    let i := Instr.clearMayday [BitVec.ofNat 8 q.val]
    let u := catchUp s
    let l := u.live
    ((ctxOf l q).source = .alert → Refuses i 0x41 0x16 s) ∧
    ((ctxOf l q).source = .receive → (look l.ovr q).mayday = none → Refuses i 0x41 0x1A s) ∧
    ∀ p, SwitchLaw l → (ctxOf l q).source = .receive → (look l.ovr q).mayday = some p →
      CarriesOut i s u 0x41 0x00 [] s.cfg (MaydayEnded s.cfg q p l)) ∧
  ∀ (b : Byte) (s : State), 7 < b.toNat → Holds s 0x41 [b] → Refuses (.clearMayday [b]) 0x41 0x12 s

/-! ### Evacuation alert -/

namespace Sys2Proof.Claims

open Sys2Proof.Machine

/-- The alert timer that a duration in seconds loads: none for 0, at most 600 s (R111, R114). -/
def loadedTimer (seconds : Nat) : AlertTimer :=
  if seconds = 0 then .untilCancelled else .running (8000 * min seconds 600)

/-- The cadence generator as it starts (R91); count and pointer of SILENT are the model's (log entry 18). -/
def startedGen (c : CadenceSettings) : CadenceGen :=
  if c.onMs = 0 then { phase := .silent, count := 0, pointer := 0 }
  else { phase := .on, count := 8 * c.onMs, pointer := 0 }

/-- The live state whose contexts the alerts save (R103, R111, R128): a pending switch that involves a patch coming under
alert is aborted first. -/
def alertBase (c : Settings) (aborts : Bool) (before : Live) : Live := if aborts then abort c .alert before else before

/-- An alert has begun on patch `q` (R111): the former context saved as level 2, as the abort of a pending switch has left
it where one is aborted (`aborts`), with the holder or talkers it had; the timer loaded, source ALERT, the floor empty,
mode and restriction kept, the ring flushed with every reader at the head, and no console reading it as a guest (R110).
Every radio member that was DORMANT, one with TALK alone too, has keyed at the head (R67, R112), its receive side as a
keying leaves it and its claim released where its COR is ignored now (R34; log entry 33); radio members that were readers
go on, out of HANG and without an end mark; every other reader has the head as its end mark (R70, R72). -/
def AlertBegun (c : Settings) (aborts : Bool) (seconds : Nat) (q : Patch) (before after : Live) : Prop :=
  (∃ sv, (look after.ovr q).save2 = some sv ∧
    look after.ovr q = { look before.ovr q with save2 := some sv, timer := loadedTimer seconds } ∧
    sv.mode = (ctxOf before q).mode ∧ sv.restriction = (ctxOf before q).restriction ∧ sv.source = .receive ∧
    ((ctxOf before q).mode = .single → before.switch.state = .none → sv.floor = (ctxOf before q).floor) ∧
    (GuestPremises c before → Following c before → sv = ctxOf (alertBase c aborts before) q)) ∧
  ctxOf after q =
    { mode := (ctxOf before q).mode, floor := [], restriction := (ctxOf before q).restriction, source := .alert } ∧
  look after.rings q = { store := [], head := (look before.rings q).head } ∧
  (∀ p : Port, reads after p q = true → ∃ r, (look after.tx p).reader = some r ∧
    r.cursor = (look before.rings q).head) ∧
  (before.guestHolder = some q → reads after 16 q = false ∧ reads after 17 q = false) ∧
  (GuestPremises c before → Following c before → ∀ p : Port, p.val < 16 → (memberIn c before q p).isSome = true →
    (look before.tx p).state = .dormant →
    look after.tx p = keyedAtHead c before q p ∧ look after.rx p = rxAsKeyed c p (look before.rx p) ∧
    (Ignored c after p → p ∉ claimantsOf after q)) ∧
  (GuestPremises c before → ∀ p : Port, reads after p q = true → ∀ r ∈ (look after.tx p).reader,
    let member := p.val < 16 ∧ (memberIn c before q p).isSome = true
    (member → r.endMark = none ∧ (look after.tx p).state ≠ .hang) ∧
      (¬ member → r.endMark = some (look before.rings q).head))

/-- The floor that the end of an alert on patch `q` restores from its saved context: under restriction NONE rebuilt
(R104), under MAYDAY restored for the mayday port (R105), and with a latched port the one for that port over the rebuilt
floor (R113). -/
def alertEndFloor (c : Settings) (l : Live) (q : Patch) (sv : Context) : List Port :=
  match (look l.ovr q).latch with
  | some p => restoredMaydayFloor c l q p (rebuiltFloor c l q sv.mode sv.floor)
  | none => match sv.restriction with
    | some mp => restoredMaydayFloor c l q mp sv.floor
    | none => rebuiltFloor c l q sv.mode sv.floor

/-- An alert has ended on patch `q` (R104, R105, R113): source RECEIVE, level-2 save and timer gone; the floor is
`alertEndFloor`, whose functions statement RestoredFloorsKeepTheirHolders describes; without a latched port the saved mode
and restriction are back; with one, its mayday has begun over the restored context, with lamp, guest
request and MAYDAY; ALERT_END is recorded; the transmit machines of the radio ports follow the floors (R50, R67, R70, R72);
a console that waited DORMANT for the holder's alert to end reads its ring again (R110). -/
def AlertEnded (c : Settings) (q : Patch) (before after : Live) : Prop :=
  (look after.ovr q).save2 = none ∧ (look after.ovr q).timer = .stopped ∧ (look after.ovr q).latch = none ∧
  (ctxOf after q).source = .receive ∧
  ((look before.ovr q).latch = none →
    (look after.ovr q).mayday = (look before.ovr q).mayday ∧ (look after.ovr q).save1 = (look before.ovr q).save1 ∧
    ∀ sv, (look before.ovr q).save2 = some sv → (ctxOf after q).restriction = sv.restriction ∧
      (ctxOf after q).mode = (if sv.restriction = none then sv.mode else .single)) ∧
  (∀ p, (look before.ovr q).latch = some p →
    (look after.ovr q).mayday = some p ∧ (ctxOf after q).mode = .single ∧ (ctxOf after q).restriction = some p ∧
    look after.lamps p = true ∧ (after.guestHolder = some q ∨ q ∈ after.guestQueue) ∧
    (look after.exc (patchSource q)).getLsbD 0 = true ∧
    ∃ sv1, (look after.ovr q).save1 = some sv1 ∧ sv1.restriction = none ∧ sv1.source = .receive ∧
      ∀ sv, (look before.ovr q).save2 = some sv → sv1.mode = sv.mode) ∧
  (∀ sv, (look before.ovr q).save2 = some sv →
    (claimantsOf after q = claimantsOf before q → (ctxOf after q).floor = alertEndFloor c before q sv)) ∧
  (GuestPremises c before → Following c before → claimantsOf after q = claimantsOf before q) ∧
  (GuestPremises c before → Following c before → before.switch.state = .none → ∀ p : Port, p.val < 16 →
    FollowsAt c before after p) ∧
  (look after.exc (patchSource q)).getLsbD 2 = true ∧ (look after.acc (patchSource q)).getLsbD 2 = true ∧
  look after.rings q = look before.rings q ∧
  (GuestPremises c before → before.guestHolder = some q → ∀ p : Port, 16 ≤ p.val →
    (look before.tx p).state = .dormant →
    (p ∉ (ctxOf after q).floor → GuestKeyed after q p) ∧
      (p ∈ (ctxOf after q).floor → (look after.tx p).state = .dormant))

/-- The cadence generator after alerts have ended: STOPPED once no patch is under alert (R91), its discarded count and
pointer held as 0 (log entry 18). -/
def CadenceAfterAlerts (before after : Live) : Prop :=
  ((∀ r : Patch, (ctxOf after r).source = .receive) → after.gen = { phase := .stopped, count := 0, pointer := 0 }) ∧
    ((∃ r : Patch, (ctxOf after r).source = .alert) → after.gen = before.gen)

end Sys2Proof.Claims

/-- SOUND ALERT is refused STATE if a patch of the set is not valid; else it begins an alert on each that is not under
alert (its context saved as it stands, after the abort of a pending switch where one is aborted, its ring flushed, and
every DORMANT radio member, one with TALK alone too, keyed at the head), leaves the others as they are, starts the cadence
generator if it is STOPPED, aborts a pending switch that involves one of them, and answers CLAMPED for a duration above
600 s (R34, R67, R70, R72, R91, R103, R110 to R112, R128). Count and pointer of a generator in SILENT are held as 0 (log
entry 18), and a key-up of 0 as a count of 1 (log entry 23), the model's choices; what becomes of the count and of an
untaken settlement of an abandoned fresh debounce is its choice too (log entries 15, 29). That the claim of a member
without LISTEN is released as well follows R67, R112 and R34, where R55 reads otherwise (log entry 33). -/
def Obligations.SoundAlertBeginsAlerts : Prop :=
  ∀ (set : Byte) (seconds : Nat) (s : State), seconds < 65536 → Holds s 0x42 (set :: twoBytes seconds) →
    let i := Instr.soundAlert (set :: twoBytes seconds)
    let u := catchUp s
    let l := u.live
    let fresh := fun q : Patch => set.getLsbD q.val = true ∧ (ctxOf l q).source = .receive
    ((∃ q : Patch, set.getLsbD q.val = true ∧ (activeRecord s.cfg l q).valid = false) → Refuses i 0x42 0x1A s) ∧
    (SwitchLaw l → (∀ q : Patch, set.getLsbD q.val = true → (activeRecord s.cfg l q).valid = true) →
      CarriesOut i s u 0x42 (if 600 < seconds then 0x02 else 0x00) [] s.cfg (fun t =>
        (∀ q : Patch, fresh q → AlertBegun s.cfg
          (decide (∃ r : Patch, fresh r ∧ (look l.fla r).freezing = true)) seconds q l t) ∧
        (∀ q : Patch, ¬ fresh q → look t.ovr q = look l.ovr q) ∧
        t.lamps = l.lamps ∧ t.guestHolder = l.guestHolder ∧ t.guestQueue = l.guestQueue ∧
        t.gen = (if (∃ q : Patch, fresh q) ∧ l.gen.phase = .stopped then startedGen s.cfg.cadence else l.gen) ∧
        ((∃ q : Patch, fresh q ∧ (look l.fla q).freezing = true) → t.active = l.active ∧
          (∀ q : Patch, (look t.fla q).freezing = false) ∧
          t.switch = { state := .none, involved := [], grace := none, last := .aborted .alert,
                       lastInvolved := l.switch.involved })))

/-- CANCEL ALERT ends the alert on every patch of the set that is under alert, and leaves the overrides of the others as
they are; the expiry of an alert timer ends the alert on its patch, where a saved holder that still claims has the floor
again; the transmit machines of the radio ports follow the floors (R50, R67, R70, R72, R104, R113, R114, R115). Count and
pointer of the STOPPED generator are held as 0 (log entry 18), and a key-up of 0 as a count of 1 (log entry 23), the
model's choices. -/
def Obligations.CancelAndTimerEndAlerts : Prop :=
  (∀ (set : Byte) (s : State), SwitchLaw (catchUp s).live → Holds s 0x43 [set] →
    CarriesOut (.cancelAlert [set]) s (catchUp s) 0x43 0x00 [] s.cfg (fun t =>
      let l := (catchUp s).live
      (∀ q : Patch, set.getLsbD q.val = true → (ctxOf l q).source = .alert → AlertEnded s.cfg q l t) ∧
      (∀ q : Patch, set.getLsbD q.val = false ∨ (ctxOf l q).source = .receive → look t.ovr q = look l.ovr q) ∧
      ((∃ q : Patch, set.getLsbD q.val = true ∧ (ctxOf l q).source = .alert) → CadenceAfterAlerts l t))) ∧
  ∀ (q : Patch) (s : State), SwitchLaw (catchUp s).live → (ctxOf s.live q).source = .alert →
    (look s.live.ovr q).timer = .running 0 →
    Happens (.alertTimerExpiry q) s (catchUp s) (fun t =>
      let l := (catchUp s).live
      AlertEnded s.cfg q l t ∧ CadenceAfterAlerts l t ∧ OtherOverridesKept q l t ∧
      (∀ sv, (look l.ovr q).save2 = some sv → (ctxOf t q).mode = .single →
        (ctxOf t q).floor = alertEndFloor s.cfg l q sv) ∧
      ∀ sv h, (look l.ovr q).latch = none → (look l.ovr q).save2 = some sv → sv.restriction = none →
        sv.mode = .single → sv.floor = [h] → h ∈ claimantsOf l q → (ctxOf t q).floor = [h])

/-! ### Tone and cadence -/

/-- LOAD TONE writes its samples from the start position on, counted modulo 1024, and no other; a start above 1023 is
refused RANGE (R89). The store is taken in its canonical form (log entry 17). -/
def Obligations.LoadToneWritesTheSamples : Prop :=
  ∀ (start : Nat) (vs : List Sample) (s : State), start < 65536 → 1 ≤ vs.length → vs.length ≤ 28 →
    Memory.wf s.cfg.tone = true →
    let body := twoBytes start ++ vs.flatMap (fun v => [v.extractLsb' 8 8, v.extractLsb' 0 8])
    Holds s 0x48 body →
    let i := Instr.loadTone body
    let u := atOrder i s
    (1024 ≤ start → Answers i s (withReply 0x48 0x12 [] u)) ∧
    (start < 1024 → ∃ m : Memory,
      Answers i s (withReply 0x48 0x00 [] (withCore { s.cfg with tone := m } u.live u)) ∧
      (∀ (j : Nat) (h : j < vs.length), m.read ((start + j) % 1024) = vs[j]) ∧
      ∀ k : Nat, (∀ j : Nat, j < vs.length → k ≠ (start + j) % 1024) → m.read k = s.cfg.tone.read k)

namespace Sys2Proof.Claims

open Sys2Proof.Machine

/-- What SET CADENCE makes of the generator (R93); the count and pointer discarded in SILENT are held as 0 (log entry
18). -/
def genAfterSetting (c : CadenceSettings) (g : CadenceGen) : CadenceGen :=
  if g.phase = .stopped then g
  else if c.onMs = 0 then (if g.phase = .silent then g else { phase := .silent, count := 0, pointer := 0 })
  else if g.phase = .silent then { phase := .on, count := 8 * c.onMs, pointer := 0 }
  else if c.loopLength ≤ g.pointer then { g with pointer := 0 }
  else g

end Sys2Proof.Claims

/-- SET CADENCE stores the settings, on and off times at most 5000 ms, and answers them as stored, CLAMPED where one was
above; the generator takes them up as R93 says; a loop length of 0 or above 1024 is refused RANGE. At the end of an on
burst the gap starts, or with gap 0 the next burst goes on without a pointer reset; at the end of a gap a burst starts
at pointer 0 (R90, R92, R93). The model's choices in it: count and pointer of SILENT are held as 0 (log entry 18), and the
order is answered once the ring work of its frame is done (log entry 6). -/
def Obligations.CadenceSettingsAndCountEnds : Prop :=
  (∀ (loop on off : Nat) (tone voice : Gain) (s : State), loop < 65536 → on < 65536 → off < 65536 →
    let body := twoBytes loop ++ twoBytes on ++ twoBytes off ++ [tone, voice]
    Holds s 0x49 body →
    let i := Instr.setCadence body
    let u := atOrder i s
    let stored : CadenceSettings :=
      { loopLength := loop, onMs := min on 5000, offMs := min off 5000, toneGain := tone, voiceGain := voice }
    (loop = 0 ∨ 1024 < loop → Answers i s (withReply 0x49 0x12 [] u)) ∧
    (1 ≤ loop → loop ≤ 1024 →
      Answers i s (withReply 0x49 (if 5000 < on ∨ 5000 < off then 0x02 else 0x00)
        (twoBytes loop ++ twoBytes (min on 5000) ++ twoBytes (min off 5000) ++ [tone, voice])
        (withCore { s.cfg with cadence := stored } { u.live with gen := genAfterSetting stored u.live.gen } u)))) ∧
  (∀ s : State, s.live.gen.phase = .on → s.live.gen.count = 0 →
    Answers .cadenceCountEnd s (withCore s.cfg { s.live with gen :=
      if s.cfg.cadence.offMs = 0 then { s.live.gen with count := 8 * s.cfg.cadence.onMs }
      else { s.live.gen with phase := .off, count := 8 * s.cfg.cadence.offMs } } s)) ∧
  ∀ s : State, s.live.gen.phase = .off → s.live.gen.count = 0 →
    Answers .cadenceCountEnd s (withCore s.cfg { s.live with gen :=
      { phase := .on, count := 8 * s.cfg.cadence.onMs, pointer := 0 } } s)

/-! ### Signalling and timers -/

namespace Sys2Proof.Claims

open Sys2Proof.Machine

/-- The live state after an event, with the switch's idle test made (log entry 32) and its conditions recorded (R122,
R145). -/
abbrev EndsWith (i : Instr) (s : State) (l : Live) : Prop :=
  Answers i s (withCore s.cfg (closeEvent s.cfg l) (catchUp s))

/-- A debounce whose settlement has been taken at a level (R27, R28). -/
def atLevel (v : Bool) : Debounce := { level := v, count := 0, fresh := false, run := false, due := none }

/-- The talk-time timer as a port enters RX_ACTIVE: not for limit 0, not for a mayday port (R31, R33). -/
def startTalk (c : Settings) (l : Live) (p : Port) : Option Nat :=
  if (look c.ports p).talkLimit = 0 ∨ ∃ q : Patch, (look l.ovr q).mayday = some p then none
  else some (8000 * (look c.ports p).talkLimit)

end Sys2Proof.Claims

/-- The settled level of COR or EMG changes as its settlement is taken. Of COR while it is ignored no more follows, but a
rise raises LOOP on a FULL port with RXLO on. Else a rise takes RX_QUIET to RX_ACTIVE, with the talk-time timer started
and a claim; a fall takes RX_ACTIVE to RX_QUIET with a release, and RX_LOCKOUT to RX_QUIET with none (R29 to R31, R34,
R36, R37). The model's choices in it: the level changes as the event is taken (log entry 24), and the idle test of a
pending switch ends each event (log entry 32). -/
def Obligations.SettledSignallingDrivesTheReceiver : Prop :=
  ∀ (p : Port) (s : State),
    let c := s.cfg
    let u := catchUp s
    let r := look u.live.rx p
    let up := u.live.setRx p { r with cor := atLevel true }
    let down := u.live.setRx p { r with cor := atLevel false }
    (r.cor.due = some true →
      (Ignored c u.live p → (look c.ports p).duplex = .full →
        EndsWith (.corSettledRise p) s { up with raised := up.raised ++ [(portSource p, .loop)] }) ∧
      (Ignored c u.live p → (look c.ports p).duplex = .half → EndsWith (.corSettledRise p) s up) ∧
      (¬ Ignored c u.live p → r.rx = .quiet → EndsWith (.corSettledRise p) s
        (claim c p (u.live.setRx p { r with rx := .active, talk := startTalk c u.live p, cor := atLevel true }))) ∧
      (¬ Ignored c u.live p → r.rx ≠ .quiet → EndsWith (.corSettledRise p) s up)) ∧
    (r.cor.due = some false →
      (Ignored c u.live p → EndsWith (.corSettledFall p) s down) ∧
      (¬ Ignored c u.live p → r.rx = .quiet → EndsWith (.corSettledFall p) s down) ∧
      (¬ Ignored c u.live p → r.rx = .active → EndsWith (.corSettledFall p) s
        (release c p (u.live.setRx p { r with rx := .quiet, talk := none, cor := atLevel false }))) ∧
      (¬ Ignored c u.live p → r.rx = .lockout → EndsWith (.corSettledFall p) s
        (u.live.setRx p { r with rx := .quiet, talk := none, cor := atLevel false }))) ∧
    (r.emg.due = some false → EndsWith (.emgSettledFall p) s (u.live.setRx p { r with emg := atLevel false }))

namespace Sys2Proof.Claims

open Sys2Proof.Machine

/-- A keyed port that has left the keyed states (R35, R73, R75): cursor dropped, timers stopped, and a fresh debounce
begun where its COR was ignored. -/
def offAir (c : Settings) (p : Port) (target : TxState) (l : Live) : Live :=
  let gone := l.setTx p
    { state := target, reader := none, keyUp := none, hang := none, confirm := none, hangDue := false, sample := 0 }
  if (look c.ports p).duplex = .half ∨ (look c.ports p).rxlo = true then freshCor p gone else gone

end Sys2Proof.Claims

/-- The timers of a port as they expire. Talk-time: RX_LOCKOUT with a release, and STUCK. Key-up: KEYING to ON_AIR. The
entry into HANG loads the hang timer, a hang time of 0 being held as a count of 1 (the model's, log entry 23). Hang:
DORMANT, and the transmit machines follow, so that a port still entitled under an active writer keys again. Key-confirm:
FAULT from any keyed state, and KEYFAIL (R32, R68, R71, R72, R75). The model's choices in it beside that count: a COR
settlement still to be taken is dropped as the fresh debounce after a keying begins (log entry 29), and the idle test of a
pending switch ends each event but the entry into HANG (log entry 32). -/
def Obligations.PortTimersExpire : Prop :=
  ∀ (p : Port) (s : State),
    let c := s.cfg
    let u := catchUp s
    ((look s.live.rx p).rx = .active → (look s.live.rx p).talk = some 0 →
      let l := release c p (u.live.setRx p { look u.live.rx p with rx := .lockout, talk := none })
      EndsWith (.talkTimeExpiry p) s { l with raised := l.raised ++ [(portSource p, .stuck)] }) ∧
    ((look s.live.tx p).state = .keying → (look s.live.tx p).keyUp = some 0 →
      EndsWith (.keyUpExpiry p) s (u.live.setTx p { look u.live.tx p with state := .onAir, keyUp := none })) ∧
    ((look s.live.tx p).state = .onAir → (look s.live.tx p).hangDue = true →
      Answers (.enterHang p) s (withCore c (s.live.setTx p
        { look s.live.tx p with
          state := .hang, hang := some (max 1 (8 * (look c.ports p).hang)), hangDue := false, sample := 0 }) s)) ∧
    ((look s.live.tx p).state = .hang → (look s.live.tx p).hang = some 0 →
      EndsWith (.hangExpiry p) s (settleKeys c (offAir c p .dormant u.live))) ∧
    ((look s.live.tx p).state = .keying ∨ (look s.live.tx p).state = .onAir ∨ (look s.live.tx p).state = .hang →
      (look s.live.tx p).confirm = some 0 →
      let l := offAir c p .fault u.live
      EndsWith (.keyConfirmExpiry p) s { l with raised := l.raised ++ [(portSource p, .keyfail)] })

/-- What the events of a port leave unchanged: settings, highway, overrides, lamps, the guest resource; with no switch
pending also rings, freezing flags, active bank, switch, and the mode, restriction and source of every patch, the
condition sets of every source but the port's own, and the report queue but for that source joining its end. Where the
plan and the claimants are lawful and the transmit machines already follow floors and plan, the floor state of every
patch but the port's own stays, and so do the receive side and the transmit machine of every other port that is neither a
member of that patch nor a guest on its ring; what came about at once before an event that is due has been taken (log
entry 4). -/
def Obligations.PortEventsKeepTheRest : Prop :=
  ∀ (p : Port) (i : Instr) (s : State),
    i ∈ [Instr.corSettledRise p, .corSettledFall p, .emgSettledFall p, .talkTimeExpiry p, .keyUpExpiry p, .enterHang p,
      .hangExpiry p, .keyConfirmExpiry p] →
    ∃ t, Answers i s t ∧ t.cfg = s.cfg ∧ t.hwi = s.hwi ∧ t.pending = s.pending ∧
      t.live.ovr = s.live.ovr ∧ t.live.lamps = s.live.lamps ∧ t.live.guestHolder = s.live.guestHolder ∧
      t.live.guestQueue = s.live.guestQueue ∧
      (s.live.switch.state = .none → t.live.rings = s.live.rings ∧ t.live.active = s.live.active ∧
        t.live.switch = s.live.switch ∧ ∀ q : Patch,
          (look t.live.fla q).freezing = (look s.live.fla q).freezing ∧
          (ctxOf t.live q).mode = (ctxOf s.live q).mode ∧
          (ctxOf t.live q).restriction = (ctxOf s.live q).restriction ∧
          (ctxOf t.live q).source = (ctxOf s.live q).source) ∧
      (∀ r : Port, r ≠ p → (look t.live.rx r).emg = (look s.live.rx r).emg) ∧
      (s.live.switch.state = .none → s.live.raised = [] →
        (∀ src : Source, src ≠ portSource p →
          look t.live.exc src = look s.live.exc src ∧ look t.live.acc src = look s.live.acc src) ∧
        (t.live.queue = s.live.queue ∨ t.live.queue = s.live.queue ++ [portSource p])) ∧
      (s.live.switch.state = .none → PlanLaw s.cfg → ClaimLaw s.cfg s.live →
        Following s.cfg (catchUp s).live →
        let u := (catchUp s).live
        let near := fun q : Patch => portPatch s.cfg u p = some q
        (∀ q : Patch, ¬ near q → look t.live.fla q = look u.fla q) ∧
        ∀ r : Port, r ≠ p →
          (∀ q : Patch, near q → memberIn s.cfg u q r = none ∧ ¬ (16 ≤ r.val ∧ u.guestHolder = some q)) →
          look t.live.rx r = look u.rx r ∧
            (EventDue s i → i ≠ .enterHang p → look t.live.tx r = look u.tx r) ∧
            (¬ EventDue s i ∨ i = .enterHang p → look t.live.tx r = look s.live.tx r))

/-! ### Floors -/

namespace Sys2Proof.Claims

open Sys2Proof.Machine

/-- A claimant may hold the floor under restriction MAYDAY of port `mp`: `mp` itself, a port of rank 0, or one whose EMG
level is HIGH (R52). -/
abbrev AllowedUnder (c : Settings) (l : Live) (q : Patch) (mp p : Port) : Prop :=
  p = mp ∨ rankIn c l q p = 0 ∨ (look l.rx p).emg.level = true

/-- Claims are granted and places refilled: source RECEIVE, and not freezing (R55, R56). -/
abbrev Granting (l : Live) (q : Patch) : Prop := (ctxOf l q).source = .receive ∧ (look l.fla q).freezing = false

end Sys2Proof.Claims

/-- Claims and releases in a SINGLE patch. A claim takes a free floor by selection; takes it from a holder of higher rank
number, never at equal rank; under MAYDAY the mayday port takes it from any, others take it only where allowed, and never
from the mayday port or from a holder that is not allowed any more; a port granted does not read the ring; with source ALERT or freezing the floor stays. A release
takes the port out of the claimants, and out of the floor, which is refilled by selection unless held. Under MAYDAY the
rise of a waiting claimant's EMG level is treated as a claim by it; of any other port, and with no restriction, it
changes nothing (R41, R45 to R47, R50, R52 to R56). -/
def Obligations.SingleFloorFollowsClaimsAndReleases : Prop :=
  (∀ (c : Settings) (l : Live) (p : Port) (q : Patch), TalksIn c l p q → (ctxOf l q).mode = .single →
    let t := claim c p l
    let claiming := fun r : Port => r = p ∨ r ∈ claimantsOf l q
    let among := allPorts.filter (fun r => decide (claiming r))
    (¬ Granting l q → (ctxOf t q).floor = (ctxOf l q).floor) ∧
    (Granting l q → (ctxOf l q).restriction = none → (ctxOf l q).floor = [] →
      IsSelected c l q among (ctxOf t q).floor) ∧
    (∀ h rest, Granting l q → (ctxOf l q).restriction = none → (ctxOf l q).floor = h :: rest →
      (ctxOf t q).floor = (if rankIn c l q p < rankIn c l q h then [p] else h :: rest)) ∧
    (Granting l q → (ctxOf l q).restriction = some p → (ctxOf t q).floor = [p]) ∧
    (∀ mp, Granting l q → (ctxOf l q).restriction = some mp → p ≠ mp → ¬ AllowedUnder c l q mp p →
      (ctxOf t q).floor = (ctxOf l q).floor) ∧
    (∀ mp h rest, Granting l q → (ctxOf l q).restriction = some mp → p ≠ mp → AllowedUnder c l q mp p →
      (ctxOf l q).floor = h :: rest →
      (ctxOf t q).floor =
        (if h ≠ mp ∧ AllowedUnder c l q mp h ∧ rankIn c l q p < rankIn c l q h then [p] else h :: rest)) ∧
    (∀ mp, Granting l q → (ctxOf l q).restriction = some mp → p ≠ mp → AllowedUnder c l q mp p →
      (ctxOf l q).floor = [] →
      IsSelected c l q (among.filter (fun r =>
        decide (r = mp) || decide (rankIn c l q r = 0) || (look l.rx r).emg.level)) (ctxOf t q).floor) ∧
    (∀ h ∈ (ctxOf t q).floor, Granting l q → h ∉ (ctxOf l q).floor → reads t h q = false)) ∧
  (∀ (c : Settings) (l : Live) (p : Port) (q : Patch), (ctxOf l q).mode = .single → p ∈ claimantsOf l q →
    (∀ r : Patch, r ≠ q → p ∉ claimantsOf l r) →
    let t := release c p l
    let others := (claimantsOf l q).filter (fun r => r ≠ p)
    (∀ r : Patch, p ∉ claimantsOf t r) ∧
    (p ∉ (ctxOf l q).floor → (ctxOf t q).floor = (ctxOf l q).floor) ∧
    (¬ Granting l q → (ctxOf l q).floor = [p] → (ctxOf t q).floor = []) ∧
    (Granting l q → (ctxOf l q).restriction = none → (ctxOf l q).floor = [p] →
      IsSelected c l q others (ctxOf t q).floor) ∧
    (∀ mp, Granting l q → (ctxOf l q).restriction = some mp → (ctxOf l q).floor = [p] →
      IsSelected c l q (others.filter (fun r =>
        decide (r = mp) || decide (rankIn c l q r = 0) || (look l.rx r).emg.level)) (ctxOf t q).floor)) ∧
  (∀ (c : Settings) (l : Live) (p : Port) (q : Patch) (mp : Port), portPatch c l p = some q →
    (ctxOf l q).mode = .single → (ctxOf l q).restriction = some mp →
    let t := emgRise c p l
    let waits := p ∈ claimantsOf l q ∧ p ∉ (ctxOf l q).floor
    (¬ waits → t = l) ∧
    (waits → ¬ Granting l q ∨ ¬ AllowedUnder c l q mp p → (ctxOf t q).floor = (ctxOf l q).floor) ∧
    (waits → Granting l q → p = mp → (ctxOf t q).floor = [p]) ∧
    (∀ h rest, waits → Granting l q → p ≠ mp → AllowedUnder c l q mp p → (ctxOf l q).floor = h :: rest →
      (ctxOf t q).floor =
        (if h ≠ mp ∧ AllowedUnder c l q mp h ∧ rankIn c l q p < rankIn c l q h then [p] else h :: rest)) ∧
    (waits → Granting l q → p ≠ mp → AllowedUnder c l q mp p → (ctxOf l q).floor = [] →
      IsSelected c l q ((claimantsOf l q).filter (fun r =>
        decide (r = mp) || decide (rankIn c l q r = 0) || (look l.rx r).emg.level)) (ctxOf t q).floor)) ∧
  ∀ (c : Settings) (l : Live) (p : Port), (∀ q, portPatch c l p = some q → (ctxOf l q).restriction = none) →
    emgRise c p l = l

/-- The talker set of a MIX patch is the up to four lowest keys among its claimants, in ascending port number; a claim and a
release in a MIX patch make it so, over the claimants with and without the port, so that the lowest waiting key enters a
place set free; a waiting claimant keyed by it that releases as its COR is ignored leaves it so (the model's reading, log
entry 16). With source ALERT or freezing a claim leaves the set as it is, and a release takes the port out of it alone
(R42, R48, R49, R55, R56). -/
def Obligations.MixFloorIsTheFourLowest : Prop :=
  (∀ (c : Settings) (l : Live) (q : Patch),
    let talkers := fourLowest c l q
    let key := fun p : Port => 32 * rankIn c l q p + p.val
    talkers.length ≤ 4 ∧ talkers.Pairwise (fun a b => a.val < b.val) ∧
    (∀ p ∈ talkers, p ∈ candidates c l q) ∧
    ∀ p ∈ candidates c l q, p ∉ talkers → talkers.length = 4 ∧ ∀ r ∈ talkers, key r < key p) ∧
  (∀ (c : Settings) (l : Live) (p : Port) (q : Patch), TalksIn c l p q → (ctxOf l q).mode = .mix →
    PlanLaw c → SettingsLaw c → ClaimLaw c l →
    let t := claim c p l
    (Granting l q → (ctxOf t q).floor =
      fourLowest c (l.setClaimants q (allPorts.filter (fun r => r = p || (claimantsOf l q).contains r))) q) ∧
    (¬ Granting l q → (ctxOf t q).floor = (ctxOf l q).floor)) ∧
  ∀ (c : Settings) (l : Live) (p : Port) (q : Patch), (ctxOf l q).mode = .mix → p ∈ claimantsOf l q →
    PlanLaw c → SettingsLaw c → ClaimLaw c l →
    let t := release c p l
    p ∉ claimantsOf t q ∧
    (Granting l q → (ctxOf t q).floor =
      fourLowest c (l.setClaimants q ((claimantsOf l q).filter (fun r => r ≠ p))) q) ∧
    (¬ Granting l q → (ctxOf t q).floor = (ctxOf l q).floor.filter (fun r => r ≠ p))

/-- What a restore makes of a saved floor (R104): under restriction NONE a saved holder that still claims keeps the floor,
else selection; in MIX saved talkers that still claim stay, and the claimants with the lowest keys fill the places up to
four, none staying free while a claimant waits. As MAYDAY is set (R52), the mayday port if it claims; else the lowest of
holder or talkers that claims and is allowed; else the lowest allowed claimant. As a context with MAYDAY is restored
(R105), the mayday port if it claims; else the saved one with the lowest key, if that one claims and is allowed; else the
lowest allowed claimant. After an aborted switch a free floor is filled and a holder is preempted by strict rank (R57). -/
def Obligations.RestoredFloorsKeepTheirHolders : Prop :=
  (∀ (c : Settings) (l : Live) (q : Patch) (h : Port) (rest : List Port), h ∈ claimantsOf l q →
    rebuiltFloor c l q .single (h :: rest) = [h]) ∧
  (∀ (c : Settings) (l : Live) (q : Patch) (saved : List Port), (∀ h ∈ saved, h ∉ claimantsOf l q) →
    IsSelected c l q (claimantsOf l q) (rebuiltFloor c l q .single saved)) ∧
  (∀ (c : Settings) (l : Live) (q : Patch) (saved : List Port), saved.length ≤ 4 →
    let floor := rebuiltFloor c l q .mix saved
    floor.length ≤ 4 ∧ (∀ h ∈ saved, h ∈ claimantsOf l q → h ∈ floor) ∧ (∀ p ∈ floor, p ∈ claimantsOf l q) ∧
    (∀ p ∈ claimantsOf l q, p ∉ floor → ∀ r ∈ floor, r ∉ saved →
      32 * rankIn c l q r + r.val < 32 * rankIn c l q p + p.val) ∧
    (saved.Nodup → ∀ p ∈ claimantsOf l q, p ∉ floor → floor.length = 4)) ∧
  (∀ (c : Settings) (l : Live) (q : Patch) (mp : Port) (floor : List Port), mp ∈ claimantsOf l q →
    maydayFloor c l q mp floor = [mp]) ∧
  (∀ (c : Settings) (l : Live) (q : Patch) (mp : Port) (floor : List Port), mp ∉ claimantsOf l q →
    let allowed := fun p : Port =>
      decide (p = mp) || decide (rankIn c l q p = 0) || (look l.rx p).emg.level
    let kept := floor.filter (fun p => (claimantsOf l q).contains p && allowed p)
    IsSelected c l q (if kept = [] then (claimantsOf l q).filter allowed else kept) (maydayFloor c l q mp floor)) ∧
  (∀ (c : Settings) (l : Live) (q : Patch) (mp : Port) (saved : List Port), mp ∈ claimantsOf l q →
    restoredMaydayFloor c l q mp saved = [mp]) ∧
  (∀ (c : Settings) (l : Live) (q : Patch) (mp : Port) (saved : List Port), mp ∉ claimantsOf l q →
    let allowed := fun p : Port =>
      decide (p = mp) || decide (rankIn c l q p = 0) || (look l.rx p).emg.level
    let floor := restoredMaydayFloor c l q mp saved
    (∀ h, IsSelected c l q saved [h] → h ∈ claimantsOf l q → allowed h = true → floor = [h]) ∧
    ((∀ h, IsSelected c l q saved [h] → h ∉ claimantsOf l q ∨ allowed h = false) →
      IsSelected c l q ((claimantsOf l q).filter allowed) floor)) ∧
  ∀ (c : Settings) (l : Live) (q : Patch), Granting l q → (ctxOf l q).mode = .single →
    (ctxOf l q).restriction = none →
    ((ctxOf l q).floor = [] → IsSelected c l q (claimantsOf l q) (abortedFloor c l q)) ∧
    ∀ h, (ctxOf l q).floor = [h] →
      let better := (claimantsOf l q).filter (fun p => rankIn c l q p < rankIn c l q h)
      (better = [] → abortedFloor c l q = [h]) ∧ (better ≠ [] → IsSelected c l q better (abortedFloor c l q))

/-! ### Keying and the rings -/

namespace Sys2Proof.Claims

open Sys2Proof.Machine

/-- The selection of a MIX patch is made again after the transmit machines have followed: a keying of theirs has released
a claim in it, and the four lowest keys left differ from its floor (R48; log entry 16). -/
abbrev SelectsAgain (c : Settings) (l : Live) (q : Patch) : Prop :=
  (ctxOf l q).mode = .mix ∧ Granting l q ∧ claimantsOf (sync c l) q ≠ claimantsOf l q ∧
    fourLowest c (sync c l) q ≠ (ctxOf l q).floor

/-- A port enters the floor of `q` as context `ctx` is put in place, and reads its ring (R50). -/
abbrev EntersReading (l : Live) (q : Patch) (ctx : Context) (p : Port) : Prop :=
  p ∈ ctx.floor ∧ p ∉ (ctxOf l q).floor ∧ reads l p q = true

end Sys2Proof.Claims

/-- A port is entitled to a ring as R67 says: under RECEIVE a LISTEN member off the floor, a console only where no patch
holds the guest resource, and a console as a guest to the holder's ring; under ALERT every radio member. A DORMANT port
entitled to a ring whose writer is active keys at the head; a reader that is entitled loses its end mark, and in HANG
under an active writer is ON_AIR again at the head; one that is not gets the head as its end mark, once; FAULT stays. As a
port keys whose COR is then ignored, RX_ACTIVE drops to RX_QUIET with its claim released and its talk-time stopped. The
pieces of guest reading: a console is keyed as a guest whether or not the writer is active, not while keyed or in FAULT,
under an alert, or on that floor; a pause unkeys both consoles. The hand-on of a change (`settleKeys`): every transmit
machine follows by itself (`sync`), and exactly the ports that leave RX_ACTIVE so release their claims; where that changes
the selection of a MIX patch, its floor is put in place and they follow again; in the end none has anything left to do. A
floor put in place (`placeFloor`) changes that context alone and unkeys each port that enters it as a reader; `install` is
both. So after a settled COR or the end of a talk-time every transmit machine has followed, and every DORMANT LISTEN
member of a patch whose floor is taken keys at the head (R34, R35, R48, R50, R51, R67, R68, R70, R72, R74, R76, R77,
R110). The model's choices: a key-up of 0 held as a count of 1 (log entry 23), the selection made again (entry 16), what
becomes of the count and of an untaken settlement of an abandoned fresh debounce (entries 15, 29). That an alert's keying
releases the claim of a member without LISTEN too follows R67, R112 and R34, where R55 reads otherwise (entry 33). -/
def Obligations.KeyingFollowsTheFloors : Prop :=
  (∀ (c : Settings) (l : Live) (p : Port) (q : Patch),
    ((ctxOf l q).source = .alert → (entitled c l p q = true ↔ (memberIn c l q p).isSome = true ∧ p.val < 16)) ∧
    ((ctxOf l q).source = .receive → p.val < 16 ∨ l.guestHolder = none →
      (entitled c l p q = true ↔ p ∉ (ctxOf l q).floor ∧ ∃ m, memberIn c l q p = some m ∧ m.listen = true)) ∧
    ((ctxOf l q).source = .receive → 16 ≤ p.val → l.guestHolder ≠ none →
      (entitled c l p q = true ↔ p ∉ (ctxOf l q).floor ∧ (activeRecord c l q).valid = true ∧
        l.guestHolder = some q))) ∧
  (∀ (c : Settings) (l : Live), sync c l = allPorts.foldl (syncPort c) l) ∧
  (∀ (c : Settings) (l : Live),
    (∀ p : Port, look (sync c l).tx p = look (syncPort c l p).tx p ∧
      look (sync c l).rx p = look (syncPort c l p).rx p) ∧
    (∀ q : Patch, ctxOf (sync c l) q = ctxOf l q ∧ (look (sync c l).fla q).freezing = (look l.fla q).freezing ∧
      claimantsOf (sync c l) q =
        (claimantsOf l q).filter (fun y => decide ((look (sync c l).rx y).rx = (look l.rx y).rx))) ∧
    { sync c l with tx := l.tx, rx := l.rx, fla := l.fla } = l) ∧
  (∀ (c : Settings) (l : Live) (n : Nat),
    settleKeys c l = handOn 18 c l ∧ handOn 0 c l = sync c l ∧
    ((∀ q, ¬ SelectsAgain c l q) → handOn (n + 1) c l = sync c l) ∧
    (∀ q, SelectsAgain c l q → (∀ r : Patch, r.val < q.val → ¬ SelectsAgain c l r) →
      handOn (n + 1) c l =
        handOn n c (placeFloor c q { ctxOf l q with floor := fourLowest c (sync c l) q } (sync c l))) ∧
    Following c (handOn n c l)) ∧
  (∀ (c : Settings) (l : Live) (q : Patch) (ctx : Context),
    let t := placeFloor c q ctx l
    install c q ctx l = settleKeys c t ∧ { t with tx := l.tx, rx := l.rx, fla := l.fla } = l ∧
    (∀ r : Patch, look t.fla r = { look l.fla r with ctx := if r = q then ctx else ctxOf l r }) ∧
    ∀ p : Port,
      (EntersReading l q ctx p → look t.tx p = TxPort.dormant ∧
        look t.rx p = look (if Ignored c l p then freshCor p l else l).rx p) ∧
      (¬ EntersReading l q ctx p → look t.tx p = look l.tx p ∧ look t.rx p = look l.rx p)) ∧
  (∀ (p : Port) (i : Instr) (s : State), i ∈ [Instr.corSettledRise p, .corSettledFall p, .talkTimeExpiry p] →
    EventDue s i → s.live.switch.state = .none →
    let c := s.cfg
    let u := (catchUp s).live
    PlanLaw c → SettingsLaw c → ClaimLaw c u → GrantLaw u → Following c u →
    Happens i s (catchUp s) (fun t =>
      (∀ r : Port, FollowsAt c u t r) ∧
      ∀ (q : Patch) (r : Port), (look u.tx r).state = .dormant → listenMember c u q r = true →
        r.val < 16 ∨ u.guestHolder = none → (ctxOf u q).source = .receive → (ctxOf t q).floor ≠ [] →
        r ∉ (ctxOf t q).floor → look t.tx r = keyedAtHead c u q r)) ∧
  ∀ (c : Settings) (l : Live) (p : Port),
    let t := look l.tx p
    (t.state = .fault → syncPort c l p = l) ∧
    (t.state = .dormant → (∀ q, entitledRing c l p = some q → writerActive l q = false) → syncPort c l p = l) ∧
    (∀ q, t.state = .dormant → entitledRing c l p = some q → writerActive l q = true →
      look (syncPort c l p).tx p = keyedAtHead c l q p ∧
      look (syncPort c l p).rx p = rxAsKeyed c p (look l.rx p) ∧
      (let x := look l.rx p
       let ignores := (look c.ports p).duplex = .half ∨ (look c.ports p).rxlo = true
       (ignores → x.rx = .active → ∀ r : Patch,
         claimantsOf (syncPort c l p) r = (claimantsOf l r).filter (fun y => y ≠ p) ∧
           ctxOf (syncPort c l p) r = ctxOf l r) ∧
       (¬ (ignores ∧ x.rx = .active) → (syncPort c l p).fla = l.fla) ∧
       ∀ r : Port, r ≠ p → look (syncPort c l p).tx r = look l.tx r ∧ look (syncPort c l p).rx r = look l.rx r)) ∧
    (∀ r, t.state = .keying ∨ t.state = .onAir ∨ t.state = .hang → t.reader = some r →
      (entitled c l p r.ring = true → t.state = .hang → writerActive l r.ring = true →
        syncPort c l p = l.setTx p { t with
          state := .onAir, hang := none
          reader := some { r with cursor := (look l.rings r.ring).head, endMark := none } }) ∧
      (entitled c l p r.ring = true → t.state ≠ .hang ∨ writerActive l r.ring = false →
        syncPort c l p = l.setTx p { t with reader := some { r with endMark := none } }) ∧
      (entitled c l p r.ring = false → r.endMark = none →
        syncPort c l p = l.setTx p { t with reader := some { r with endMark := some (look l.rings r.ring).head } }) ∧
      (entitled c l p r.ring = false → r.endMark ≠ none → syncPort c l p = l)) ∧
    ∀ q : Patch,
      (t.state ≠ .dormant ∨ (ctxOf l q).source = .alert ∨ p ∈ (ctxOf l q).floor → guestKey c q l p = l) ∧
      (t.state = .dormant → (ctxOf l q).source = .receive → p ∉ (ctxOf l q).floor →
        look (guestKey c q l p).tx p =
          { state := .keying
            reader := some { ring := q, cursor := (look l.rings q).head, endMark := none }
            keyUp := some 1
            hang := none
            confirm := if (look c.ports p).confirm = 0 then none else some (max 1 (8 * (look c.ports p).confirm))
            hangDue := false
            sample := 0 }) ∧
      (l.guestHolder ≠ some q → pauseGuests c q l = l) ∧
      (l.guestHolder = some q → 16 ≤ p.val →
        (reads l p q = true → (look (pauseGuests c q l).tx p).state = .dormant) ∧
        (reads l p q = false → look (pauseGuests c q l).tx p = t))

/-- The scaling and mixing stage: it sums gain × sample over its terms exactly, rounds by floor((A + 32) / 64), and
saturates to the range of a sample; it reports clipping exactly when saturation changed the value; at gain 64 a single
term passes unchanged (R81, R82, R83). -/
def Obligations.StageSumsRoundsAndSaturates : Prop :=
  (∀ a q : Int, roundStage a = q ↔ 64 * q ≤ a + 32 ∧ a + 32 < 64 * (q + 1)) ∧
  (∀ terms : List (Gain × Sample),
    let a := (terms.map (fun t => (t.1.toNat : Int) * t.2.toInt)).sum
    let q := roundStage a
    (stage terms).1.toInt = max (-32768) (min 32767 q) ∧ ((stage terms).2 = true ↔ q < -32768 ∨ 32767 < q)) ∧
  ∀ x : Sample, stage [(64, x)] = (x, false)

/-- The ring work, port by port and ring by ring. An ON_AIR reader with a sample below head and end mark takes it, scaled
by its output gain (64 as a guest); with none it is sent silence and is to enter HANG if its writer is idle or it is not
entitled; other ports are sent silence. An append to a ring with an active writer advances readers at lag 4096 and writes
the sample at the head, which advances; it raises LAGLOSS on exactly the readers that lose a sample they were to send, once
on each, and MIXCLIP exactly where the sample clipped; other ports, and all else, stay. With an idle writer nothing happens
(R60 to R64, R69, R71, R84 to R87, R94). The patch sample and MIXCLIP are the arithmetic of R81 to R83 for every talker
set, so that four talkers at input gain 32 can clip, where the last sentence of R85 has their sum in range: the model's
reading (log entry 31). So is that a reader with nothing to take hangs in the very frame in which, before its service, the
writer became idle, the ring was flushed or the entitlement was lost (R69, R71, where R65 and R70 name the next frame; log
entry 39). -/
def Obligations.RingWorkServesAndAppends : Prop :=
  (∀ (c : Settings) (l : Live) (p : Port),
    let t := look l.tx p
    (t.state ≠ .onAir → servePort c l p = l.setTx p { t with hangDue := false, sample := 0 }) ∧
    (∀ r, t.state = .onAir → t.reader = some r →
      r.cursor = (look l.rings r.ring).head ∨ r.endMark = some r.cursor →
      servePort c l p = l.setTx p { t with
        hangDue := !writerActive l r.ring || !entitled c l p r.ring, sample := 0 }) ∧
    (∀ r, t.state = .onAir → t.reader = some r → r.cursor ≠ (look l.rings r.ring).head →
      r.endMark ≠ some r.cursor →
      let gain : Gain := if 16 ≤ p.val ∧ l.guestHolder = some r.ring then 64
        else match memberIn c l r.ring p with
          | some m => m.outGain
          | none => 64
      let out := stage [(gain, (look l.rings r.ring).store.read (r.cursor.toNat % 4096))]
      look (servePort c l p).tx p =
        { t with reader := some { r with cursor := r.cursor + 1 }, hangDue := false, sample := out.1 } ∧
      (servePort c l p).raised = l.raised ++ (if out.2 then [(portSource p, .clip)] else []))) ∧
  (∀ (c : Settings) (received : Vector Sample 18) (alert : Sample × Bool) (l : Live) (q : Patch),
    writerActive l q = false → appendRing c received alert l q = l) ∧
  (∀ (c : Settings) (received : Vector Sample 18) (alert : Sample × Bool) (l : Live) (q : Patch),
    writerActive l q = true → storeOk 4096 (look l.rings q).store = true →
    let t := appendRing c received alert l q
    let s := if (ctxOf l q).source = .alert then alert
      else stage ((ctxOf l q).floor.filterMap (fun p =>
        (memberIn c l q p).map (fun m => (m.inGain, look received p))))
    let head := (look l.rings q).head
    (look t.rings q).head = head + 1 ∧
    (look t.rings q).store.read (head.toNat % 4096) = s.1 ∧
    (∀ n : Nat, n ≠ head.toNat % 4096 → (look t.rings q).store.read n = (look l.rings q).store.read n) ∧
    (∀ r : Patch, r ≠ q → look t.rings r = look l.rings r) ∧
    (s.2 = true → (patchSource q, Cond.mixclip) ∈ t.raised) ∧
    (let loses := fun p : Port => reads l p q && (look l.tx p).reader.any (fun r =>
        decide ((head - r.cursor).toNat = 4096 ∧ r.endMark ≠ some r.cursor))
     t.raised = l.raised ++ (allPorts.filter loses).map (fun p => (portSource p, Cond.lagloss)) ++
       (if s.2 then [(patchSource q, Cond.mixclip)] else [])) ∧
    (∀ p : Port, reads l p q = false → look t.tx p = look l.tx p) ∧
    { t with rings := l.rings, tx := l.tx, raised := l.raised } = l ∧
    ∀ (p : Port) (r : Reader), reads l p q = true → (look l.tx p).reader = some r →
      ((head - r.cursor).toNat ≠ 4096 → look t.tx p = look l.tx p) ∧
      ((head - r.cursor).toNat = 4096 → r.endMark ≠ some r.cursor →
        look t.tx p = { look l.tx p with reader := some { r with cursor := r.cursor + 1 } } ∧
          (portSource p, Cond.lagloss) ∈ t.raised) ∧
      ((head - r.cursor).toNat = 4096 → r.endMark = some r.cursor →
        look t.tx p =
          { look l.tx p with reader := some { r with cursor := r.cursor + 1, endMark := some (r.cursor + 1) } })) ∧
  ∀ (c : Settings) (l : Live) (received : Vector Sample 18),
    alertTerms c l received =
      (if l.gen.phase = .on then [(c.cadence.toneGain, c.tone.read l.gen.pointer)] else []) ++
        (if (look l.rx 16).rx = .active then [(c.cadence.voiceGain, look received 16)] else [])

/-- The ring work of a frame as a whole, from the live state `l` before it (R62 to R64, R68, R69, R84 to R87, R92, R94).
Every port is served from the rings as they stood before any append: one ON_AIR, a key-up expiry due being taken first
(the model's reading, log entry 5), is sent the sample at its cursor scaled by its output gain, or silence where it has
none; every other port is sent silence. Then each ring with an active writer has one sample appended: the alert sample,
which is one for all patches under alert, or its patch sample. The cadence generator advances once, after the alert sample
is formed. CLIP and MIXCLIP are recorded. The ring work is done once in a frame, by the item of the frame's work that
stands for it. The patch sample and MIXCLIP are the arithmetic of R81 to R83 for every talker set, so that four talkers at
input gain 32 can clip, where the last sentence of R85 has their sum in range: the model's reading (log entry 31). So is
that a reader with nothing to take hangs in the very frame in which, before its service, the writer became idle, the ring
was flushed or the entitlement was lost (R69, R71, where R65 and R70 name the next frame; log entry 39). -/
def Obligations.FrameServesThenAppendsThenAdvances : Prop :=
  (∀ (c : Settings) (l : Live) (received : Vector Sample 18), (∀ q : Patch, storeOk 4096 (look l.rings q).store = true) →
    let t := ringWork c received l
    let alert := stage
      ((if l.gen.phase = .on then [(c.cadence.toneGain, c.tone.read l.gen.pointer)] else []) ++
        (if (look l.rx 16).rx = .active then [(c.cadence.voiceGain, look received 16)] else []))
    (∀ q : Patch,
      let ring := look l.rings q
      let made := if (ctxOf l q).source = .alert then alert
        else stage ((ctxOf l q).floor.filterMap (fun p =>
          (memberIn c l q p).map (fun m => (m.inGain, look received p))))
      (writerActive l q = false → look t.rings q = ring) ∧
      (writerActive l q = true → (look t.rings q).head = ring.head + 1 ∧
        (look t.rings q).store.read (ring.head.toNat % 4096) = made.1 ∧
        (∀ n : Nat, n ≠ ring.head.toNat % 4096 → (look t.rings q).store.read n = ring.store.read n) ∧
        (made.2 = true → (look t.exc (patchSource q)).getLsbD 3 = true))) ∧
    (∀ p : Port,
      let x := look l.tx p
      let sends := x.state = .onAir ∨ (x.state = .keying ∧ x.keyUp = some 0)
      (¬ sends → (look t.tx p).state = x.state ∧ (look t.tx p).sample = 0) ∧
      (sends → (look t.tx p).state = .onAir) ∧
      ∀ r, sends → x.reader = some r →
        let ring := look l.rings r.ring
        let gain : Gain := if 16 ≤ p.val ∧ l.guestHolder = some r.ring then 64
          else match memberIn c l r.ring p with
            | some m => m.outGain
            | none => 64
        let out := stage [(gain, ring.store.read (r.cursor.toNat % 4096))]
        (r.cursor = ring.head ∨ r.endMark = some r.cursor → (look t.tx p).sample = 0 ∧
          ((look t.tx p).hangDue = true ↔ writerActive l r.ring = false ∨ entitled c l p r.ring = false)) ∧
        (r.cursor ≠ ring.head → r.endMark ≠ some r.cursor → (look t.tx p).sample = out.1 ∧
          (look t.tx p).hangDue = false ∧
          (out.2 = true → (look t.exc (portSource p)).getLsbD 5 = true))) ∧
    (l.gen.phase = .on → t.gen = { l.gen with
      count := l.gen.count - 1
      pointer := if c.cadence.loopLength ≤ l.gen.pointer + 1 then 0 else l.gen.pointer + 1 }) ∧
    (l.gen.phase = .off → t.gen = { l.gen with count := l.gen.count - 1 }) ∧
    (l.gen.phase ≠ .on → l.gen.phase ≠ .off → t.gen = l.gen) ∧
    t.fla = l.fla ∧ t.rx = l.rx ∧ t.ovr = l.ovr ∧ t.switch = l.switch) ∧
  (∀ s : State, s.hwi.ringDue = true →
    runTask s .ring = { catchUp s with
      live := ringWork s.cfg s.hwi.received (catchUp s).live
      hwi := { s.hwi with ringDue := false } }) ∧
  ∀ s : State, s.hwi.ringDue = false → runTask s .ring = s

/-! ### Fields of messages -/

/-- Records are read from the bytes that carry them as they were written (R176, R177): a port record whose fields fit
their bytes, a lane entry and a patch record whose overrides are not FFFFh. An empty lane is carried as six bytes of 0,
the model's reading (log entry 14). -/
def Obligations.RecordsReadBackAsWritten : Prop :=
  (∀ r : PortRec, Carriable r → readPortRecord (portBytes r) 0 = some r) ∧
  (∀ lane : Option MemberRec, OverrideCarriable lane → readMember (laneBytes lane) 0 = some lane) ∧
  (∀ r : PatchRec, (∀ n : Lane, OverrideCarriable (look r.lanes n)) → readRecord (recordBytes r) 0 = some r) ∧
  ∀ n : Nat, n < 65536 → wordAt (twoBytes n) 0 = n

/-! ### Laws that every step keeps -/

/-- Every law of the machine holds right after power-on reset. -/
def Obligations.LawsHoldAtReset : Prop :=
  let s := State.reset
  PlanLaw s.cfg ∧ SettingsLaw s.cfg ∧ MemoryLaw s.cfg s.live ∧ PortLaw s.live ∧ FloorLaw s.live ∧ GrantLaw s.live ∧
    LagLaw s.live ∧ SwitchLaw s.live ∧ PendingLaw s.cfg s.live ∧ OverrideLaw s.cfg s.live ∧ ClaimLaw s.cfg s.live ∧
    IgnoredLaw s.cfg s.live ∧ ReportLaw s.live ∧ ChannelLaw s.mci

/-- Every step keeps the plan and the settings in their ranges: no port twice in a record or in two valid patches of a
bank, overrides, port records, cadence and masks as R3, R4, R22, R23, R90 and R151 allow them. -/
def Obligations.StepsKeepPlanAndSettings : Prop :=
  ∀ s t : State, PlanLaw s.cfg → SettingsLaw s.cfg → step s = .next t → PlanLaw t.cfg ∧ SettingsLaw t.cfg

/-- Every step keeps the tone memory and the rings' stores in their canonical form and within 1024 and 4096 positions
(R60, R88; the form is the model's, log entry 17). -/
def Obligations.StepsKeepSampleStores : Prop :=
  ∀ s t : State, MemoryLaw s.cfg s.live → step s = .next t → MemoryLaw t.cfg t.live

/-- Every step keeps the ports, floors and readers lawful: cursor and timers exactly in the states that have them, nothing
at all on a port in DORMANT or FAULT, floors that fit their modes, no port reading the ring it talks into, lags of at most
4096 and end marks not beyond the head (R31, R43, R50, R52, R55, R61, R64, R66, R68, R70, R71, R74, R103). -/
def Obligations.StepsKeepPortsFloorsAndReaders : Prop :=
  ∀ s t : State, PortLaw s.live → FloorLaw s.live → GrantLaw s.live → LagLaw s.live → step s = .next t →
    PortLaw t.live ∧ FloorLaw t.live ∧ GrantLaw t.live ∧ LagLaw t.live

/-- Every step keeps switch, overrides and claimants lawful: exactly the involved patches of a pending switch freeze and
none carries an override; saves, lamps and the guest resource belong to maydays and alerts; every claimant is a TALK
member that is RX_ACTIVE, every talker a claimant; and no port is RX_ACTIVE while its COR is ignored (R34, R41, R43, R95,
R97, R101, R103, R106, R107, R111, R118, R119, R121). -/
def Obligations.StepsKeepSwitchOverridesAndClaims : Prop :=
  (∀ s t : State, IgnoredLaw s.cfg s.live → step s = .next t → IgnoredLaw t.cfg t.live) ∧
  ∀ s t : State, PlanLaw s.cfg → SettingsLaw s.cfg → FloorLaw s.live →
    SwitchLaw s.live → PendingLaw s.cfg s.live → OverrideLaw s.cfg s.live → ClaimLaw s.cfg s.live →
    step s = .next t →
    SwitchLaw t.live ∧ PendingLaw t.cfg t.live ∧ OverrideLaw t.cfg t.live ∧ ClaimLaw t.cfg t.live

/-- Every step keeps the reports and the management channel lawful: no source queued twice or with an empty EXC, EXC
within ACC; two buffered orders, two reply places, four owed refusals at most, one place reserved exactly for the order
held, and room for every message that found RTR set (R144, R146, R157 to R163, R167). -/
def Obligations.StepsKeepReportsAndChannel : Prop :=
  ∀ s t : State, ReportLaw s.live → ChannelLaw s.mci → step s = .next t → ReportLaw t.live ∧ ChannelLaw t.mci
end

