-- ==== Sys2Proof/Laws/State.lean ====
section
/-! SUPPORT. What each update of the live state does to each field: true by rfl, for simp. -/

namespace Sys2Proof.Machine

/-! ### setRx -/

@[simp] theorem Live.setRx_active (l : Live) (p : Port) (r : RxPort) :
    (l.setRx p r).active = l.active := rfl
@[simp] theorem Live.setRx_rx (l : Live) (p : Port) (r : RxPort) :
    (l.setRx p r).rx = put l.rx p r := rfl
@[simp] theorem Live.setRx_fla (l : Live) (p : Port) (r : RxPort) :
    (l.setRx p r).fla = l.fla := rfl
@[simp] theorem Live.setRx_rings (l : Live) (p : Port) (r : RxPort) :
    (l.setRx p r).rings = l.rings := rfl
@[simp] theorem Live.setRx_tx (l : Live) (p : Port) (r : RxPort) :
    (l.setRx p r).tx = l.tx := rfl
@[simp] theorem Live.setRx_ovr (l : Live) (p : Port) (r : RxPort) :
    (l.setRx p r).ovr = l.ovr := rfl
@[simp] theorem Live.setRx_lamps (l : Live) (p : Port) (r : RxPort) :
    (l.setRx p r).lamps = l.lamps := rfl
@[simp] theorem Live.setRx_guestHolder (l : Live) (p : Port) (r : RxPort) :
    (l.setRx p r).guestHolder = l.guestHolder := rfl
@[simp] theorem Live.setRx_guestQueue (l : Live) (p : Port) (r : RxPort) :
    (l.setRx p r).guestQueue = l.guestQueue := rfl
@[simp] theorem Live.setRx_gen (l : Live) (p : Port) (r : RxPort) :
    (l.setRx p r).gen = l.gen := rfl
@[simp] theorem Live.setRx_switch (l : Live) (p : Port) (r : RxPort) :
    (l.setRx p r).switch = l.switch := rfl
@[simp] theorem Live.setRx_exc (l : Live) (p : Port) (r : RxPort) :
    (l.setRx p r).exc = l.exc := rfl
@[simp] theorem Live.setRx_acc (l : Live) (p : Port) (r : RxPort) :
    (l.setRx p r).acc = l.acc := rfl
@[simp] theorem Live.setRx_queue (l : Live) (p : Port) (r : RxPort) :
    (l.setRx p r).queue = l.queue := rfl
@[simp] theorem Live.setRx_raised (l : Live) (p : Port) (r : RxPort) :
    (l.setRx p r).raised = l.raised := rfl

/-! ### setTx -/

@[simp] theorem Live.setTx_active (l : Live) (p : Port) (t : TxPort) :
    (l.setTx p t).active = l.active := rfl
@[simp] theorem Live.setTx_rx (l : Live) (p : Port) (t : TxPort) :
    (l.setTx p t).rx = l.rx := rfl
@[simp] theorem Live.setTx_fla (l : Live) (p : Port) (t : TxPort) :
    (l.setTx p t).fla = l.fla := rfl
@[simp] theorem Live.setTx_rings (l : Live) (p : Port) (t : TxPort) :
    (l.setTx p t).rings = l.rings := rfl
@[simp] theorem Live.setTx_tx (l : Live) (p : Port) (t : TxPort) :
    (l.setTx p t).tx = put l.tx p t := rfl
@[simp] theorem Live.setTx_ovr (l : Live) (p : Port) (t : TxPort) :
    (l.setTx p t).ovr = l.ovr := rfl
@[simp] theorem Live.setTx_lamps (l : Live) (p : Port) (t : TxPort) :
    (l.setTx p t).lamps = l.lamps := rfl
@[simp] theorem Live.setTx_guestHolder (l : Live) (p : Port) (t : TxPort) :
    (l.setTx p t).guestHolder = l.guestHolder := rfl
@[simp] theorem Live.setTx_guestQueue (l : Live) (p : Port) (t : TxPort) :
    (l.setTx p t).guestQueue = l.guestQueue := rfl
@[simp] theorem Live.setTx_gen (l : Live) (p : Port) (t : TxPort) :
    (l.setTx p t).gen = l.gen := rfl
@[simp] theorem Live.setTx_switch (l : Live) (p : Port) (t : TxPort) :
    (l.setTx p t).switch = l.switch := rfl
@[simp] theorem Live.setTx_exc (l : Live) (p : Port) (t : TxPort) :
    (l.setTx p t).exc = l.exc := rfl
@[simp] theorem Live.setTx_acc (l : Live) (p : Port) (t : TxPort) :
    (l.setTx p t).acc = l.acc := rfl
@[simp] theorem Live.setTx_queue (l : Live) (p : Port) (t : TxPort) :
    (l.setTx p t).queue = l.queue := rfl
@[simp] theorem Live.setTx_raised (l : Live) (p : Port) (t : TxPort) :
    (l.setTx p t).raised = l.raised := rfl

/-! ### setFloor -/

@[simp] theorem Live.setFloor_active (l : Live) (q : Patch) (f : FloorState) :
    (l.setFloor q f).active = l.active := rfl
@[simp] theorem Live.setFloor_rx (l : Live) (q : Patch) (f : FloorState) :
    (l.setFloor q f).rx = l.rx := rfl
@[simp] theorem Live.setFloor_fla (l : Live) (q : Patch) (f : FloorState) :
    (l.setFloor q f).fla = put l.fla q f := rfl
@[simp] theorem Live.setFloor_rings (l : Live) (q : Patch) (f : FloorState) :
    (l.setFloor q f).rings = l.rings := rfl
@[simp] theorem Live.setFloor_tx (l : Live) (q : Patch) (f : FloorState) :
    (l.setFloor q f).tx = l.tx := rfl
@[simp] theorem Live.setFloor_ovr (l : Live) (q : Patch) (f : FloorState) :
    (l.setFloor q f).ovr = l.ovr := rfl
@[simp] theorem Live.setFloor_lamps (l : Live) (q : Patch) (f : FloorState) :
    (l.setFloor q f).lamps = l.lamps := rfl
@[simp] theorem Live.setFloor_guestHolder (l : Live) (q : Patch) (f : FloorState) :
    (l.setFloor q f).guestHolder = l.guestHolder := rfl
@[simp] theorem Live.setFloor_guestQueue (l : Live) (q : Patch) (f : FloorState) :
    (l.setFloor q f).guestQueue = l.guestQueue := rfl
@[simp] theorem Live.setFloor_gen (l : Live) (q : Patch) (f : FloorState) :
    (l.setFloor q f).gen = l.gen := rfl
@[simp] theorem Live.setFloor_switch (l : Live) (q : Patch) (f : FloorState) :
    (l.setFloor q f).switch = l.switch := rfl
@[simp] theorem Live.setFloor_exc (l : Live) (q : Patch) (f : FloorState) :
    (l.setFloor q f).exc = l.exc := rfl
@[simp] theorem Live.setFloor_acc (l : Live) (q : Patch) (f : FloorState) :
    (l.setFloor q f).acc = l.acc := rfl
@[simp] theorem Live.setFloor_queue (l : Live) (q : Patch) (f : FloorState) :
    (l.setFloor q f).queue = l.queue := rfl
@[simp] theorem Live.setFloor_raised (l : Live) (q : Patch) (f : FloorState) :
    (l.setFloor q f).raised = l.raised := rfl

/-! ### setCtx -/

@[simp] theorem Live.setCtx_active (l : Live) (q : Patch) (ctx : Context) :
    (l.setCtx q ctx).active = l.active := rfl
@[simp] theorem Live.setCtx_rx (l : Live) (q : Patch) (ctx : Context) :
    (l.setCtx q ctx).rx = l.rx := rfl
@[simp] theorem Live.setCtx_fla (l : Live) (q : Patch) (ctx : Context) :
    (l.setCtx q ctx).fla = put l.fla q { look l.fla q with ctx := ctx } := rfl
@[simp] theorem Live.setCtx_rings (l : Live) (q : Patch) (ctx : Context) :
    (l.setCtx q ctx).rings = l.rings := rfl
@[simp] theorem Live.setCtx_tx (l : Live) (q : Patch) (ctx : Context) :
    (l.setCtx q ctx).tx = l.tx := rfl
@[simp] theorem Live.setCtx_ovr (l : Live) (q : Patch) (ctx : Context) :
    (l.setCtx q ctx).ovr = l.ovr := rfl
@[simp] theorem Live.setCtx_lamps (l : Live) (q : Patch) (ctx : Context) :
    (l.setCtx q ctx).lamps = l.lamps := rfl
@[simp] theorem Live.setCtx_guestHolder (l : Live) (q : Patch) (ctx : Context) :
    (l.setCtx q ctx).guestHolder = l.guestHolder := rfl
@[simp] theorem Live.setCtx_guestQueue (l : Live) (q : Patch) (ctx : Context) :
    (l.setCtx q ctx).guestQueue = l.guestQueue := rfl
@[simp] theorem Live.setCtx_gen (l : Live) (q : Patch) (ctx : Context) :
    (l.setCtx q ctx).gen = l.gen := rfl
@[simp] theorem Live.setCtx_switch (l : Live) (q : Patch) (ctx : Context) :
    (l.setCtx q ctx).switch = l.switch := rfl
@[simp] theorem Live.setCtx_exc (l : Live) (q : Patch) (ctx : Context) :
    (l.setCtx q ctx).exc = l.exc := rfl
@[simp] theorem Live.setCtx_acc (l : Live) (q : Patch) (ctx : Context) :
    (l.setCtx q ctx).acc = l.acc := rfl
@[simp] theorem Live.setCtx_queue (l : Live) (q : Patch) (ctx : Context) :
    (l.setCtx q ctx).queue = l.queue := rfl
@[simp] theorem Live.setCtx_raised (l : Live) (q : Patch) (ctx : Context) :
    (l.setCtx q ctx).raised = l.raised := rfl

/-! ### setClaimants -/

@[simp] theorem Live.setClaimants_active (l : Live) (q : Patch) (ps : List Port) :
    (l.setClaimants q ps).active = l.active := rfl
@[simp] theorem Live.setClaimants_rx (l : Live) (q : Patch) (ps : List Port) :
    (l.setClaimants q ps).rx = l.rx := rfl
@[simp] theorem Live.setClaimants_fla (l : Live) (q : Patch) (ps : List Port) :
    (l.setClaimants q ps).fla = put l.fla q { look l.fla q with claimants := ps } := rfl
@[simp] theorem Live.setClaimants_rings (l : Live) (q : Patch) (ps : List Port) :
    (l.setClaimants q ps).rings = l.rings := rfl
@[simp] theorem Live.setClaimants_tx (l : Live) (q : Patch) (ps : List Port) :
    (l.setClaimants q ps).tx = l.tx := rfl
@[simp] theorem Live.setClaimants_ovr (l : Live) (q : Patch) (ps : List Port) :
    (l.setClaimants q ps).ovr = l.ovr := rfl
@[simp] theorem Live.setClaimants_lamps (l : Live) (q : Patch) (ps : List Port) :
    (l.setClaimants q ps).lamps = l.lamps := rfl
@[simp] theorem Live.setClaimants_guestHolder (l : Live) (q : Patch) (ps : List Port) :
    (l.setClaimants q ps).guestHolder = l.guestHolder := rfl
@[simp] theorem Live.setClaimants_guestQueue (l : Live) (q : Patch) (ps : List Port) :
    (l.setClaimants q ps).guestQueue = l.guestQueue := rfl
@[simp] theorem Live.setClaimants_gen (l : Live) (q : Patch) (ps : List Port) :
    (l.setClaimants q ps).gen = l.gen := rfl
@[simp] theorem Live.setClaimants_switch (l : Live) (q : Patch) (ps : List Port) :
    (l.setClaimants q ps).switch = l.switch := rfl
@[simp] theorem Live.setClaimants_exc (l : Live) (q : Patch) (ps : List Port) :
    (l.setClaimants q ps).exc = l.exc := rfl
@[simp] theorem Live.setClaimants_acc (l : Live) (q : Patch) (ps : List Port) :
    (l.setClaimants q ps).acc = l.acc := rfl
@[simp] theorem Live.setClaimants_queue (l : Live) (q : Patch) (ps : List Port) :
    (l.setClaimants q ps).queue = l.queue := rfl
@[simp] theorem Live.setClaimants_raised (l : Live) (q : Patch) (ps : List Port) :
    (l.setClaimants q ps).raised = l.raised := rfl

/-! ### setFreezing -/

@[simp] theorem Live.setFreezing_active (l : Live) (q : Patch) (b : Bool) :
    (l.setFreezing q b).active = l.active := rfl
@[simp] theorem Live.setFreezing_rx (l : Live) (q : Patch) (b : Bool) :
    (l.setFreezing q b).rx = l.rx := rfl
@[simp] theorem Live.setFreezing_fla (l : Live) (q : Patch) (b : Bool) :
    (l.setFreezing q b).fla = put l.fla q { look l.fla q with freezing := b } := rfl
@[simp] theorem Live.setFreezing_rings (l : Live) (q : Patch) (b : Bool) :
    (l.setFreezing q b).rings = l.rings := rfl
@[simp] theorem Live.setFreezing_tx (l : Live) (q : Patch) (b : Bool) :
    (l.setFreezing q b).tx = l.tx := rfl
@[simp] theorem Live.setFreezing_ovr (l : Live) (q : Patch) (b : Bool) :
    (l.setFreezing q b).ovr = l.ovr := rfl
@[simp] theorem Live.setFreezing_lamps (l : Live) (q : Patch) (b : Bool) :
    (l.setFreezing q b).lamps = l.lamps := rfl
@[simp] theorem Live.setFreezing_guestHolder (l : Live) (q : Patch) (b : Bool) :
    (l.setFreezing q b).guestHolder = l.guestHolder := rfl
@[simp] theorem Live.setFreezing_guestQueue (l : Live) (q : Patch) (b : Bool) :
    (l.setFreezing q b).guestQueue = l.guestQueue := rfl
@[simp] theorem Live.setFreezing_gen (l : Live) (q : Patch) (b : Bool) :
    (l.setFreezing q b).gen = l.gen := rfl
@[simp] theorem Live.setFreezing_switch (l : Live) (q : Patch) (b : Bool) :
    (l.setFreezing q b).switch = l.switch := rfl
@[simp] theorem Live.setFreezing_exc (l : Live) (q : Patch) (b : Bool) :
    (l.setFreezing q b).exc = l.exc := rfl
@[simp] theorem Live.setFreezing_acc (l : Live) (q : Patch) (b : Bool) :
    (l.setFreezing q b).acc = l.acc := rfl
@[simp] theorem Live.setFreezing_queue (l : Live) (q : Patch) (b : Bool) :
    (l.setFreezing q b).queue = l.queue := rfl
@[simp] theorem Live.setFreezing_raised (l : Live) (q : Patch) (b : Bool) :
    (l.setFreezing q b).raised = l.raised := rfl

/-! ### setRing -/

@[simp] theorem Live.setRing_active (l : Live) (q : Patch) (r : Ring) :
    (l.setRing q r).active = l.active := rfl
@[simp] theorem Live.setRing_rx (l : Live) (q : Patch) (r : Ring) :
    (l.setRing q r).rx = l.rx := rfl
@[simp] theorem Live.setRing_fla (l : Live) (q : Patch) (r : Ring) :
    (l.setRing q r).fla = l.fla := rfl
@[simp] theorem Live.setRing_rings (l : Live) (q : Patch) (r : Ring) :
    (l.setRing q r).rings = put l.rings q r := rfl
@[simp] theorem Live.setRing_tx (l : Live) (q : Patch) (r : Ring) :
    (l.setRing q r).tx = l.tx := rfl
@[simp] theorem Live.setRing_ovr (l : Live) (q : Patch) (r : Ring) :
    (l.setRing q r).ovr = l.ovr := rfl
@[simp] theorem Live.setRing_lamps (l : Live) (q : Patch) (r : Ring) :
    (l.setRing q r).lamps = l.lamps := rfl
@[simp] theorem Live.setRing_guestHolder (l : Live) (q : Patch) (r : Ring) :
    (l.setRing q r).guestHolder = l.guestHolder := rfl
@[simp] theorem Live.setRing_guestQueue (l : Live) (q : Patch) (r : Ring) :
    (l.setRing q r).guestQueue = l.guestQueue := rfl
@[simp] theorem Live.setRing_gen (l : Live) (q : Patch) (r : Ring) :
    (l.setRing q r).gen = l.gen := rfl
@[simp] theorem Live.setRing_switch (l : Live) (q : Patch) (r : Ring) :
    (l.setRing q r).switch = l.switch := rfl
@[simp] theorem Live.setRing_exc (l : Live) (q : Patch) (r : Ring) :
    (l.setRing q r).exc = l.exc := rfl
@[simp] theorem Live.setRing_acc (l : Live) (q : Patch) (r : Ring) :
    (l.setRing q r).acc = l.acc := rfl
@[simp] theorem Live.setRing_queue (l : Live) (q : Patch) (r : Ring) :
    (l.setRing q r).queue = l.queue := rfl
@[simp] theorem Live.setRing_raised (l : Live) (q : Patch) (r : Ring) :
    (l.setRing q r).raised = l.raised := rfl

/-! ### setOvr -/

@[simp] theorem Live.setOvr_active (l : Live) (q : Patch) (o : OverrideState) :
    (l.setOvr q o).active = l.active := rfl
@[simp] theorem Live.setOvr_rx (l : Live) (q : Patch) (o : OverrideState) :
    (l.setOvr q o).rx = l.rx := rfl
@[simp] theorem Live.setOvr_fla (l : Live) (q : Patch) (o : OverrideState) :
    (l.setOvr q o).fla = l.fla := rfl
@[simp] theorem Live.setOvr_rings (l : Live) (q : Patch) (o : OverrideState) :
    (l.setOvr q o).rings = l.rings := rfl
@[simp] theorem Live.setOvr_tx (l : Live) (q : Patch) (o : OverrideState) :
    (l.setOvr q o).tx = l.tx := rfl
@[simp] theorem Live.setOvr_ovr (l : Live) (q : Patch) (o : OverrideState) :
    (l.setOvr q o).ovr = put l.ovr q o := rfl
@[simp] theorem Live.setOvr_lamps (l : Live) (q : Patch) (o : OverrideState) :
    (l.setOvr q o).lamps = l.lamps := rfl
@[simp] theorem Live.setOvr_guestHolder (l : Live) (q : Patch) (o : OverrideState) :
    (l.setOvr q o).guestHolder = l.guestHolder := rfl
@[simp] theorem Live.setOvr_guestQueue (l : Live) (q : Patch) (o : OverrideState) :
    (l.setOvr q o).guestQueue = l.guestQueue := rfl
@[simp] theorem Live.setOvr_gen (l : Live) (q : Patch) (o : OverrideState) :
    (l.setOvr q o).gen = l.gen := rfl
@[simp] theorem Live.setOvr_switch (l : Live) (q : Patch) (o : OverrideState) :
    (l.setOvr q o).switch = l.switch := rfl
@[simp] theorem Live.setOvr_exc (l : Live) (q : Patch) (o : OverrideState) :
    (l.setOvr q o).exc = l.exc := rfl
@[simp] theorem Live.setOvr_acc (l : Live) (q : Patch) (o : OverrideState) :
    (l.setOvr q o).acc = l.acc := rfl
@[simp] theorem Live.setOvr_queue (l : Live) (q : Patch) (o : OverrideState) :
    (l.setOvr q o).queue = l.queue := rfl
@[simp] theorem Live.setOvr_raised (l : Live) (q : Patch) (o : OverrideState) :
    (l.setOvr q o).raised = l.raised := rfl

/-! ### setLamp -/

@[simp] theorem Live.setLamp_active (l : Live) (p : Port) (b : Bool) :
    (l.setLamp p b).active = l.active := rfl
@[simp] theorem Live.setLamp_rx (l : Live) (p : Port) (b : Bool) :
    (l.setLamp p b).rx = l.rx := rfl
@[simp] theorem Live.setLamp_fla (l : Live) (p : Port) (b : Bool) :
    (l.setLamp p b).fla = l.fla := rfl
@[simp] theorem Live.setLamp_rings (l : Live) (p : Port) (b : Bool) :
    (l.setLamp p b).rings = l.rings := rfl
@[simp] theorem Live.setLamp_tx (l : Live) (p : Port) (b : Bool) :
    (l.setLamp p b).tx = l.tx := rfl
@[simp] theorem Live.setLamp_ovr (l : Live) (p : Port) (b : Bool) :
    (l.setLamp p b).ovr = l.ovr := rfl
@[simp] theorem Live.setLamp_lamps (l : Live) (p : Port) (b : Bool) :
    (l.setLamp p b).lamps = put l.lamps p b := rfl
@[simp] theorem Live.setLamp_guestHolder (l : Live) (p : Port) (b : Bool) :
    (l.setLamp p b).guestHolder = l.guestHolder := rfl
@[simp] theorem Live.setLamp_guestQueue (l : Live) (p : Port) (b : Bool) :
    (l.setLamp p b).guestQueue = l.guestQueue := rfl
@[simp] theorem Live.setLamp_gen (l : Live) (p : Port) (b : Bool) :
    (l.setLamp p b).gen = l.gen := rfl
@[simp] theorem Live.setLamp_switch (l : Live) (p : Port) (b : Bool) :
    (l.setLamp p b).switch = l.switch := rfl
@[simp] theorem Live.setLamp_exc (l : Live) (p : Port) (b : Bool) :
    (l.setLamp p b).exc = l.exc := rfl
@[simp] theorem Live.setLamp_acc (l : Live) (p : Port) (b : Bool) :
    (l.setLamp p b).acc = l.acc := rfl
@[simp] theorem Live.setLamp_queue (l : Live) (p : Port) (b : Bool) :
    (l.setLamp p b).queue = l.queue := rfl
@[simp] theorem Live.setLamp_raised (l : Live) (p : Port) (b : Bool) :
    (l.setLamp p b).raised = l.raised := rfl

/-! ### raise -/

@[simp] theorem Live.raise_active (l : Live) (src : Source) (e : Cond) :
    (l.raise src e).active = l.active := rfl
@[simp] theorem Live.raise_rx (l : Live) (src : Source) (e : Cond) :
    (l.raise src e).rx = l.rx := rfl
@[simp] theorem Live.raise_fla (l : Live) (src : Source) (e : Cond) :
    (l.raise src e).fla = l.fla := rfl
@[simp] theorem Live.raise_rings (l : Live) (src : Source) (e : Cond) :
    (l.raise src e).rings = l.rings := rfl
@[simp] theorem Live.raise_tx (l : Live) (src : Source) (e : Cond) :
    (l.raise src e).tx = l.tx := rfl
@[simp] theorem Live.raise_ovr (l : Live) (src : Source) (e : Cond) :
    (l.raise src e).ovr = l.ovr := rfl
@[simp] theorem Live.raise_lamps (l : Live) (src : Source) (e : Cond) :
    (l.raise src e).lamps = l.lamps := rfl
@[simp] theorem Live.raise_guestHolder (l : Live) (src : Source) (e : Cond) :
    (l.raise src e).guestHolder = l.guestHolder := rfl
@[simp] theorem Live.raise_guestQueue (l : Live) (src : Source) (e : Cond) :
    (l.raise src e).guestQueue = l.guestQueue := rfl
@[simp] theorem Live.raise_gen (l : Live) (src : Source) (e : Cond) :
    (l.raise src e).gen = l.gen := rfl
@[simp] theorem Live.raise_switch (l : Live) (src : Source) (e : Cond) :
    (l.raise src e).switch = l.switch := rfl
@[simp] theorem Live.raise_exc (l : Live) (src : Source) (e : Cond) :
    (l.raise src e).exc = l.exc := rfl
@[simp] theorem Live.raise_acc (l : Live) (src : Source) (e : Cond) :
    (l.raise src e).acc = l.acc := rfl
@[simp] theorem Live.raise_queue (l : Live) (src : Source) (e : Cond) :
    (l.raise src e).queue = l.queue := rfl
@[simp] theorem Live.raise_raised (l : Live) (src : Source) (e : Cond) :
    (l.raise src e).raised = l.raised ++ [(src, e)] := rfl

/-! ### withRestart -/

@[simp] theorem Live.withRestart_active (l : Live) : l.withRestart.active = l.active := rfl
@[simp] theorem Live.withRestart_rx (l : Live) : l.withRestart.rx = l.rx := rfl
@[simp] theorem Live.withRestart_fla (l : Live) : l.withRestart.fla = l.fla := rfl
@[simp] theorem Live.withRestart_rings (l : Live) : l.withRestart.rings = l.rings := rfl
@[simp] theorem Live.withRestart_tx (l : Live) : l.withRestart.tx = l.tx := rfl
@[simp] theorem Live.withRestart_ovr (l : Live) : l.withRestart.ovr = l.ovr := rfl
@[simp] theorem Live.withRestart_lamps (l : Live) : l.withRestart.lamps = l.lamps := rfl
@[simp] theorem Live.withRestart_guestHolder (l : Live) : l.withRestart.guestHolder = l.guestHolder := rfl
@[simp] theorem Live.withRestart_guestQueue (l : Live) : l.withRestart.guestQueue = l.guestQueue := rfl
@[simp] theorem Live.withRestart_gen (l : Live) : l.withRestart.gen = l.gen := rfl
@[simp] theorem Live.withRestart_switch (l : Live) : l.withRestart.switch = l.switch := rfl
@[simp] theorem Live.withRestart_exc (l : Live) : l.withRestart.exc = l.exc.set systemSource 1 := rfl
@[simp] theorem Live.withRestart_acc (l : Live) : l.withRestart.acc = l.acc.set systemSource 1 := rfl
@[simp] theorem Live.withRestart_queue (l : Live) : l.withRestart.queue = [systemSource] := rfl
@[simp] theorem Live.withRestart_raised (l : Live) : l.withRestart.raised = l.raised := rfl

end Sys2Proof.Machine
end

