-- ==== Sys2Proof/Laws/Ops.lean ====
section
/-! SUPPORT. The laws of the shared operations: tables, sets of ports, sample stores, the mix stage, folds. -/

namespace Sys2Proof.Machine

/-! ### Tables -/

@[simp] theorem look_put_same {α : Type} {n : Nat} (v : Vector α n) (i : Fin n) (x : α) : look (put v i x) i = x := by
  simp [look, put]

theorem look_put_ne {α : Type} {n : Nat} (v : Vector α n) (i j : Fin n) (x : α) (h : j ≠ i) :
    look (put v i x) j = look v j := by
  have h' : i.val ≠ j.val := fun e => h (Fin.ext e.symm)
  simp [look, put, h']

theorem look_put {α : Type} {n : Nat} (v : Vector α n) (i j : Fin n) (x : α) :
    look (put v i x) j = if j = i then x else look v j := by
  by_cases h : j = i
  · subst h; simp
  · simp [h, look_put_ne]

@[simp] theorem put_look {α : Type} {n : Nat} (v : Vector α n) (i : Fin n) : put v i (look v i) = v := by
  simp [look, put]

@[simp] theorem look_mapTable {α β : Type} {n : Nat} (f : Fin n → α → β) (v : Vector α n) (i : Fin n) :
    look (mapTable f v) i = f i (look v i) := by
  simp [look, mapTable]

@[simp] theorem look_ofFn {α : Type} {n : Nat} (f : Fin n → α) (i : Fin n) : look (Vector.ofFn f) i = f i := by
  simp [look]

@[simp] theorem look_replicate {α : Type} {n : Nat} (x : α) (i : Fin n) : look (Vector.replicate n x) i = x := by
  simp [look]

theorem table_ext {α : Type} {n : Nat} {v w : Vector α n} (h : ∀ i, look v i = look w i) : v = w := by
  apply Vector.ext
  intro i hi
  exact h ⟨i, hi⟩

/-! ### Sets of ports -/

@[simp] theorem mem_allPorts (p : Port) : p ∈ allPorts := by revert p; decide

@[simp] theorem mem_allPatches (q : Patch) : q ∈ allPatches := by revert q; decide

@[simp] theorem mem_allLanes (n : Lane) : n ∈ allLanes := by revert n; decide

theorem allPorts_nodup : allPorts.Nodup := by decide

@[simp] theorem mem_portSet (p : Port) (ps : List Port) : p ∈ portSet ps ↔ p ∈ ps := by
  simp [portSet]

@[simp] theorem mem_addPort (p x : Port) (ps : List Port) : x ∈ addPort p ps ↔ x = p ∨ x ∈ ps := by
  simp [addPort]

@[simp] theorem mem_dropPort (p x : Port) (ps : List Port) : x ∈ dropPort p ps ↔ x ∈ ps ∧ x ≠ p := by
  simp [dropPort]

theorem portSet_nodup (ps : List Port) : (portSet ps).Nodup := List.Nodup.filter _ allPorts_nodup

/-- A set of ports is no longer than the list it is made from. -/
theorem length_portSet_le (ps : List Port) : (portSet ps).length ≤ ps.length :=
  (List.subperm_of_subset (portSet_nodup ps) (fun _ h => (mem_portSet _ _).1 h)).length_le

theorem length_dropPort_le (p : Port) (ps : List Port) : (dropPort p ps).length ≤ ps.length :=
  List.length_filter_le _ _

/-! ### Sample stores -/

theorem Memory.above_mono (m : Memory) (x b : Nat) (h : x ≤ b) (hm : Memory.above b m = true) :
    Memory.above x m = true := by
  cases m with
  | nil => rfl
  | cons e m =>
    simp only [Memory.above, decide_eq_true_eq] at hm ⊢
    omega

theorem Memory.wf_tail (e : Nat × Sample) (m : Memory) (h : Memory.wf (e :: m) = true) : Memory.wf m = true := by
  obtain ⟨a, v⟩ := e
  simp only [Memory.wf, Bool.and_eq_true] at h
  exact h.2

theorem Memory.above_write (m : Memory) (x a : Nat) (v : Sample) (hw : Memory.wf m = true)
    (hm : Memory.above x m = true) (ha : x < a) : Memory.above x (Memory.write m a v) = true := by
  cases m with
  | nil => unfold Memory.write; split <;> simp [Memory.above, ha]
  | cons e m =>
    obtain ⟨b, w⟩ := e
    simp only [Memory.above, decide_eq_true_eq] at hm
    simp only [Memory.wf, Bool.and_eq_true] at hw
    unfold Memory.write
    split
    · split <;> simp [Memory.above, hm, ha]
    · split
      · split
        · exact Memory.above_mono m x b (le_of_lt hm) hw.1.2
        · simp [Memory.above, hm]
      · simp [Memory.above, hm]

/-- A write keeps the canonical form of a store. -/
theorem Memory.wf_write (m : Memory) (a : Nat) (v : Sample) (h : Memory.wf m = true) :
    Memory.wf (Memory.write m a v) = true := by
  induction m with
  | nil => unfold Memory.write; split <;> simp_all [Memory.wf, Memory.above]
  | cons e m ih =>
    obtain ⟨b, w⟩ := e
    have ht := Memory.wf_tail _ _ h
    simp only [Memory.wf, Bool.and_eq_true, decide_eq_true_eq] at h
    unfold Memory.write
    split
    · split
      · simpa [Memory.wf] using h
      · simp_all [Memory.wf, Memory.above]
    · split
      · split
        · exact ht
        · simp_all [Memory.wf]
      · simp only [Memory.wf, Bool.and_eq_true, decide_eq_true_eq]
        exact ⟨⟨h.1.1, Memory.above_write m b a v ht h.1.2 (by omega)⟩, ih ht⟩

theorem Memory.read_of_above (m : Memory) (a b : Nat) (hw : Memory.wf m = true) (hm : Memory.above b m = true)
    (ha : a ≤ b) : Memory.read m a = 0 := by
  induction m generalizing b with
  | nil => rfl
  | cons e m ih =>
    obtain ⟨c, w⟩ := e
    simp only [Memory.above, decide_eq_true_eq] at hm
    simp only [Memory.wf, Bool.and_eq_true] at hw
    have hne : a ≠ c := by omega
    simp only [Memory.read, hne, if_false]
    exact ih c hw.2 hw.1.2 (by omega)

/-- A read after a write: the written sample at the written position, what stood there everywhere else. -/
theorem Memory.read_write (m : Memory) (a x : Nat) (v : Sample) (hw : Memory.wf m = true) :
    Memory.read (Memory.write m a v) x = if x = a then v else Memory.read m x := by
  induction m with
  | nil =>
    unfold Memory.write
    split <;> by_cases hx : x = a <;> simp_all [Memory.read]
  | cons e m ih =>
    obtain ⟨b, w⟩ := e
    have ht := Memory.wf_tail _ _ hw
    have hab : Memory.above b m = true := by simp_all [Memory.wf]
    unfold Memory.write
    by_cases h1 : a < b
    · rw [if_pos h1]
      by_cases hv : v = 0
      · rw [if_pos hv]
        by_cases hx : x = a
        · subst hx
          have : x ≠ b := by omega
          simp only [Memory.read, this, if_false, if_true]
          rw [Memory.read_of_above m x b ht hab (by omega), hv]
        · simp [hx]
      · rw [if_neg hv]
        by_cases hx : x = a <;> simp [Memory.read, hx]
    · rw [if_neg h1]
      by_cases h2 : a = b
      · rw [if_pos h2]
        subst h2
        by_cases hv : v = 0
        · rw [if_pos hv]
          by_cases hx : x = a
          · subst hx
            rw [Memory.read_of_above m x x ht hab (le_refl _)]
            simp [hv]
          · simp [Memory.read, hx]
        · rw [if_neg hv]
          by_cases hx : x = a <;> simp [Memory.read, hx]
      · rw [if_neg h2]
        simp only [Memory.read]
        by_cases hx : x = b
        · have : x ≠ a := fun e => h2 (by omega)
          simp [hx]
          intro e
          exact absurd e (by omega)
        · simp only [hx, if_false]
          exact ih ht

/-- What a store lists after a write was listed before or stands at the written position. -/
theorem Memory.mem_write (m : Memory) (a : Nat) (v : Sample) (e : Nat × Sample) (h : e ∈ Memory.write m a v) :
    e ∈ m ∨ e.1 = a := by
  induction m with
  | nil =>
    unfold Memory.write at h
    split at h
    · simp at h
    · exact Or.inr (by rw [List.mem_singleton.1 h])
  | cons f m ih =>
    obtain ⟨b, w⟩ := f
    unfold Memory.write at h
    split at h
    · split at h
      · exact Or.inl h
      · rcases List.mem_cons.1 h with h | h
        · exact Or.inr (by rw [h])
        · exact Or.inl h
    · split at h
      · rename_i hab
        split at h
        · exact Or.inl (List.mem_cons_of_mem _ h)
        · rcases List.mem_cons.1 h with h | h
          · exact Or.inr (by rw [h, hab])
          · exact Or.inl (List.mem_cons_of_mem _ h)
      · rcases List.mem_cons.1 h with h | h
        · exact Or.inl (by rw [h]; exact List.mem_cons_self)
        · rcases ih h with h | h
          · exact Or.inl (List.mem_cons_of_mem _ h)
          · exact Or.inr h

/-- A write at a position below the size keeps a store of that size in order. -/
theorem storeOk_write (size : Nat) (m : Memory) (a : Nat) (v : Sample) (ha : a < size)
    (h : Safety.storeOk size m = true) : Safety.storeOk size (Memory.write m a v) = true := by
  simp only [Safety.storeOk, Bool.and_eq_true, Safety.below, List.all_eq_true, decide_eq_true_eq] at h ⊢
  refine ⟨Memory.wf_write m a v h.1, fun e he => ?_⟩
  rcases Memory.mem_write m a v e he with he | he
  · exact h.2 e he
  · omega

theorem storeOk_load (size : Nat) (hs : 0 < size) (vs : List Sample) (m : Memory) (a : Nat)
    (h : Safety.storeOk size m = true) : Safety.storeOk size (Memory.load size m a vs) = true := by
  induction vs generalizing m a with
  | nil => exact h
  | cons v vs ih => exact ih _ _ (storeOk_write size m _ v (Nat.mod_lt _ hs) h)

@[simp] theorem storeOk_nil (size : Nat) : Safety.storeOk size [] = true := rfl

/-! ### The mix stage -/

theorem saturate_low (q : Int) : -32768 ≤ saturate q := by
  unfold saturate; repeat (first | omega | split)

theorem saturate_high (q : Int) : saturate q ≤ 32767 := by
  unfold saturate; repeat (first | omega | split)

/-- The sample the stage gives is the saturated rounded sum (R82, R83). -/
theorem stage_toInt (terms : List (Gain × Sample)) :
    (stage terms).1.toInt = saturate (roundStage (accumulate terms)) := by
  have h1 := saturate_low (roundStage (accumulate terms))
  have h2 := saturate_high (roundStage (accumulate terms))
  simp only [stage, BitVec.toInt_ofInt]
  exact Int.bmod_eq_of_le (by omega) (by omega)

/-! ### Folds -/

/-- What every step of a fold keeps, the fold keeps. -/
theorem foldl_keeps {α β : Type} (P : β → Prop) (f : β → α → β) (hf : ∀ b a, P b → P (f b a)) (xs : List α) (b : β)
    (h : P b) : P (xs.foldl f b) := by
  induction xs generalizing b with
  | nil => exact h
  | cons x xs ih => exact ih _ (hf _ _ h)

/-- What every step of a fold keeps for the listed entries, the fold keeps. -/
theorem foldl_keeps_mem {α β : Type} (P : β → Prop) (f : β → α → β) (xs : List α)
    (hf : ∀ b, ∀ a ∈ xs, P b → P (f b a)) (b : β) (h : P b) : P (xs.foldl f b) := by
  induction xs generalizing b with
  | nil => exact h
  | cons x xs ih =>
    exact ih (fun b a ha => hf b a (List.mem_cons_of_mem _ ha)) _ (hf _ _ List.mem_cons_self h)

end Sys2Proof.Machine
end

