-- ==== Sys2Proof/Laws/Floor.lean ====
section
/-! SUPPORT. What the operations of Machine/Floor.lean leave unchanged: all of them change receive machines, floors and
transmit machines only, and keep every freezing flag. -/

namespace Sys2Proof.Machine

/-- The live state with the receive machines, transmit machines, contexts and claimants set aside. Two live states
that agree under it differ in those alone. -/
@[irreducible] def Live.beyondFloors (l : Live) : Live :=
  { l with
    rx := Vector.replicate 18 (RxPort.fresh 0)
    tx := Vector.replicate 18 TxPort.dormant
    fla := mapTable (fun _ f => { FloorState.default .single with freezing := f.freezing }) l.fla }

@[simp] theorem Live.setRx_beyondFloors (l : Live) (p : Port) (r : RxPort) :
    (l.setRx p r).beyondFloors = l.beyondFloors := by
  unfold Live.beyondFloors; rfl

@[simp] theorem Live.setTx_beyondFloors (l : Live) (p : Port) (t : TxPort) :
    (l.setTx p t).beyondFloors = l.beyondFloors := by
  unfold Live.beyondFloors; rfl

/-- A floor state replaced by one with the same freezing flag. -/
theorem Live.setFloor_beyondFloors (l : Live) (q : Patch) (f : FloorState)
    (h : f.freezing = (look l.fla q).freezing) : (l.setFloor q f).beyondFloors = l.beyondFloors := by
  unfold Live.beyondFloors Live.setFloor
  congr 1
  apply table_ext
  intro i
  simp only [look_mapTable, look_put]
  split
  · rename_i e; subst e; rw [h]
  · rfl

@[simp] theorem Live.setCtx_beyondFloors (l : Live) (q : Patch) (ctx : Context) :
    (l.setCtx q ctx).beyondFloors = l.beyondFloors := l.setFloor_beyondFloors q _ rfl

@[simp] theorem Live.setClaimants_beyondFloors (l : Live) (q : Patch) (ps : List Port) :
    (l.setClaimants q ps).beyondFloors = l.beyondFloors := l.setFloor_beyondFloors q _ rfl

@[simp] theorem dropClaims_beyondFloors (p : Port) (l : Live) : (dropClaims p l).beyondFloors = l.beyondFloors := by
  unfold Live.beyondFloors dropClaims
  congr 1

@[simp] theorem startFreshCor_beyondFloors (p : Port) (l : Live) :
    (startFreshCor p l).beyondFloors = l.beyondFloors := by
  simp [startFreshCor]

@[simp] theorem ignoreAsKeyed_beyondFloors (p : Port) (l : Live) :
    (ignoreAsKeyed p l).beyondFloors = l.beyondFloors := by
  unfold ignoreAsKeyed; simp only; split <;> simp

@[simp] theorem key_beyondFloors (c : Settings) (p : Port) (q : Patch) (ms : Nat) (l : Live) :
    (key c p q ms l).beyondFloors = l.beyondFloors := by
  unfold key; simp only; split <;> simp

@[simp] theorem leaveKeyed_beyondFloors (c : Settings) (p : Port) (t : TxState) (l : Live) :
    (leaveKeyed c p t l).beyondFloors = l.beyondFloors := by
  unfold leaveKeyed; simp only; split <;> simp

@[simp] theorem unkey_beyondFloors (c : Settings) (p : Port) (l : Live) :
    (unkey c p l).beyondFloors = l.beyondFloors := by
  unfold unkey; split <;> simp

@[simp] theorem clearFault_beyondFloors (p : Port) (l : Live) : (clearFault p l).beyondFloors = l.beyondFloors := by
  unfold clearFault; split <;> simp

@[simp] theorem syncReader_beyondFloors (c : Settings) (l : Live) (p : Port) :
    (syncReader c l p).beyondFloors = l.beyondFloors := by
  unfold syncReader syncEntitled syncUnentitled
  simp only
  repeat' split
  all_goals simp

@[simp] theorem syncPort_beyondFloors (c : Settings) (l : Live) (p : Port) :
    (syncPort c l p).beyondFloors = l.beyondFloors := by
  unfold syncPort
  repeat' split
  all_goals simp

/-- A fold of steps that change floors and machines alone changes floors and machines alone. -/
theorem foldl_beyondFloors {α : Type} (f : Live → α → Live) (hf : ∀ l a, (f l a).beyondFloors = l.beyondFloors)
    (xs : List α) (l : Live) : (xs.foldl f l).beyondFloors = l.beyondFloors :=
  foldl_keeps (fun l' => l'.beyondFloors = l.beyondFloors) f (fun _ _ h => (hf _ _).trans h) xs l rfl

@[simp] theorem sync_beyondFloors (c : Settings) (l : Live) : (sync c l).beyondFloors = l.beyondFloors :=
  foldl_beyondFloors _ (syncPort_beyondFloors c) _ _

@[simp] theorem placeFloor_beyondFloors (c : Settings) (q : Patch) (ctx : Context) (l : Live) :
    (placeFloor c q ctx l).beyondFloors = l.beyondFloors := by
  unfold placeFloor
  have hf : ∀ l' p, (if reads l' p q then unkey c p l' else l').beyondFloors = l'.beyondFloors := by
    intro l' p; split <;> simp
  simp only
  rw [foldl_beyondFloors _ hf]
  simp

@[simp] theorem handOn_beyondFloors (n : Nat) (c : Settings) (l : Live) :
    (handOn n c l).beyondFloors = l.beyondFloors := by
  induction n generalizing l with
  | zero => simp [handOn]
  | succ n ih =>
    have hr : ∀ l' o, (reselect (handOn n c) c l' o).beyondFloors = l'.beyondFloors := by
      intro l' o; cases o <;> simp [reselect, ih]
    simp [handOn, hr]

@[simp] theorem settleKeys_beyondFloors (c : Settings) (l : Live) : (settleKeys c l).beyondFloors = l.beyondFloors :=
  handOn_beyondFloors _ _ _

@[simp] theorem install_beyondFloors (c : Settings) (q : Patch) (ctx : Context) (l : Live) :
    (install c q ctx l).beyondFloors = l.beyondFloors := by
  simp [install]

@[simp] theorem keyLoser_beyondFloors (c : Settings) (q : Patch) (l : Live) (p : Port) :
    (keyLoser c q l p).beyondFloors = l.beyondFloors := by
  unfold keyLoser; split <;> simp

@[simp] theorem installRestricted_beyondFloors (c : Settings) (q : Patch) (ctx : Context) (l : Live) :
    (installRestricted c q ctx l).beyondFloors = l.beyondFloors := by
  unfold installRestricted
  exact (settleKeys_beyondFloors _ _).trans
    ((foldl_beyondFloors _ (keyLoser_beyondFloors c q) _ _).trans (by simp))

@[simp] theorem installFloor_beyondFloors (c : Settings) (q : Patch) (floor : List Port) (l : Live) :
    (installFloor c q floor l).beyondFloors = l.beyondFloors := by
  simp [installFloor]

@[simp] theorem claim_beyondFloors (c : Settings) (p : Port) (l : Live) :
    (claim c p l).beyondFloors = l.beyondFloors := by
  unfold claim; simp only
  repeat' split
  all_goals simp

@[simp] theorem releaseIn_beyondFloors (c : Settings) (p : Port) (l : Live) (q : Patch) :
    (releaseIn c p l q).beyondFloors = l.beyondFloors := by
  unfold releaseIn; simp only
  repeat' split
  all_goals simp

@[simp] theorem release_beyondFloors (c : Settings) (p : Port) (l : Live) :
    (release c p l).beyondFloors = l.beyondFloors :=
  foldl_beyondFloors _ (releaseIn_beyondFloors c p) _ _

@[simp] theorem enterRxActive_beyondFloors (c : Settings) (p : Port) (l : Live) :
    (enterRxActive c p l).beyondFloors = l.beyondFloors := by
  simp [enterRxActive]

@[simp] theorem leaveRxActive_beyondFloors (c : Settings) (p : Port) (r : RxState) (l : Live) :
    (leaveRxActive c p r l).beyondFloors = l.beyondFloors := by
  simp [leaveRxActive]

@[simp] theorem beginIgnoring_beyondFloors (c : Settings) (p : Port) (l : Live) :
    (beginIgnoring c p l).beyondFloors = l.beyondFloors := by
  unfold beginIgnoring; simp only; split <;> simp

@[simp] theorem liftLockout_beyondFloors (c : Settings) (p : Port) (l : Live) :
    (liftLockout c p l).beyondFloors = l.beyondFloors := by
  unfold liftLockout; simp only
  repeat' split
  all_goals simp

@[simp] theorem emgRise_beyondFloors (c : Settings) (p : Port) (l : Live) :
    (emgRise c p l).beyondFloors = l.beyondFloors := by
  unfold emgRise
  repeat' split
  all_goals simp

/-- Under restriction NONE a holder is preempted by rank alone (R46). -/
theorem preemptible_unrestricted {c : Settings} {l : Live} {q : Patch} (h : (ctxOf l q).restriction = none) (p : Port) :
    preemptible c l q p = true := by
  simp [preemptible, eligible, h]

/-- Under MAYDAY the mayday port is never preempted (R53). -/
theorem preemptible_maydayPort {c : Settings} {l : Live} {q : Patch} {p : Port} (h : (ctxOf l q).restriction = some p) :
    preemptible c l q p = false := by
  simp [preemptible, h]

/-- Two live states that agree beyond floors and machines agree in every other field. -/
theorem beyondFloors_fields {l l' : Live} (h : l'.beyondFloors = l.beyondFloors) :
    l'.active = l.active ∧ l'.rings = l.rings ∧ l'.ovr = l.ovr ∧ l'.lamps = l.lamps ∧
      l'.guestHolder = l.guestHolder ∧ l'.guestQueue = l.guestQueue ∧ l'.gen = l.gen ∧ l'.switch = l.switch ∧
      l'.exc = l.exc ∧ l'.acc = l.acc ∧ l'.queue = l.queue ∧ l'.raised = l.raised :=
  by
  unfold Live.beyondFloors at h
  exact ⟨congrArg (·.active) h, congrArg (·.rings) h, congrArg (·.ovr) h, congrArg (·.lamps) h, congrArg (·.guestHolder) h,
    congrArg (·.guestQueue) h, congrArg (·.gen) h, congrArg (·.switch) h, congrArg (·.exc) h, congrArg (·.acc) h,
    congrArg (·.queue) h, congrArg (·.raised) h⟩

/-- Two live states that agree beyond floors and machines have the same freezing flags. -/
theorem beyondFloors_freezing {l l' : Live} (h : l'.beyondFloors = l.beyondFloors) (q : Patch) :
    (look l'.fla q).freezing = (look l.fla q).freezing := by
  unfold Live.beyondFloors at h
  have := congrArg (fun x : Live => (look x.fla q).freezing) h
  simpa using this

end Sys2Proof.Machine
end

