-- ==== Sys2Proof/Laws/Switching.lean ====
section
/-! SUPPORT. What floor changes, plan switches and the end of an event leave unchanged: the overrides with their lamps,
the guest resource and the cadence generator; and the condition sets with the report queue until they are recorded. -/

namespace Sys2Proof.Machine

/-- The part of the live state that the Override Controller holds (R95). -/
@[irreducible] def Live.overrides (l : Live) :
    Vector OverrideState 8 × Vector Bool 18 × Option Patch × List Patch × CadenceGen :=
  (l.ovr, l.lamps, l.guestHolder, l.guestQueue, l.gen)

/-- The part of the live state that the Condition and Report Unit holds (9.2, R146). -/
@[irreducible] def Live.reports (l : Live) : Vector Byte 27 × Vector Byte 27 × List Source := (l.exc, l.acc, l.queue)

theorem overrides_fields {l l' : Live} (h : l'.overrides = l.overrides) :
    l'.ovr = l.ovr ∧ l'.lamps = l.lamps ∧ l'.guestHolder = l.guestHolder ∧ l'.guestQueue = l.guestQueue ∧
      l'.gen = l.gen := by
  unfold Live.overrides at h
  simpa using h

theorem reports_fields {l l' : Live} (h : l'.reports = l.reports) :
    l'.exc = l.exc ∧ l'.acc = l.acc ∧ l'.queue = l.queue := by
  unfold Live.reports at h
  simpa using h

theorem overrides_of_fields {l l' : Live} (h1 : l'.ovr = l.ovr) (h2 : l'.lamps = l.lamps)
    (h3 : l'.guestHolder = l.guestHolder) (h4 : l'.guestQueue = l.guestQueue) (h5 : l'.gen = l.gen) :
    l'.overrides = l.overrides := by
  unfold Live.overrides; rw [h1, h2, h3, h4, h5]

theorem reports_of_fields {l l' : Live} (h1 : l'.exc = l.exc) (h2 : l'.acc = l.acc) (h3 : l'.queue = l.queue) :
    l'.reports = l.reports := by
  unfold Live.reports; rw [h1, h2, h3]

theorem overrides_of_beyond {l l' : Live} (h : l'.beyondFloors = l.beyondFloors) : l'.overrides = l.overrides := by
  have f := beyondFloors_fields h
  exact overrides_of_fields f.2.2.1 f.2.2.2.1 f.2.2.2.2.1 f.2.2.2.2.2.1 f.2.2.2.2.2.2.1

theorem reports_of_beyond {l l' : Live} (h : l'.beyondFloors = l.beyondFloors) : l'.reports = l.reports := by
  have f := beyondFloors_fields h
  exact reports_of_fields f.2.2.2.2.2.2.2.2.1 f.2.2.2.2.2.2.2.2.2.1 f.2.2.2.2.2.2.2.2.2.2.1

/-- The two parts together: what a floor change or a plan switch leaves alone until conditions are recorded. -/
def SameElsewhere (l l' : Live) : Prop := l'.overrides = l.overrides ∧ l'.reports = l.reports

theorem SameElsewhere.refl (l : Live) : SameElsewhere l l := ⟨rfl, rfl⟩

theorem SameElsewhere.trans {a b d : Live} (h : SameElsewhere a b) (k : SameElsewhere b d) : SameElsewhere a d :=
  ⟨k.1.trans h.1, k.2.trans h.2⟩

theorem SameElsewhere.of_beyond {l l' : Live} (h : l'.beyondFloors = l.beyondFloors) : SameElsewhere l l' :=
  ⟨overrides_of_beyond h, reports_of_beyond h⟩

theorem SameElsewhere.of_fields {l l' : Live} (h1 : l'.ovr = l.ovr) (h2 : l'.lamps = l.lamps)
    (h3 : l'.guestHolder = l.guestHolder) (h4 : l'.guestQueue = l.guestQueue) (h5 : l'.gen = l.gen)
    (h6 : l'.exc = l.exc) (h7 : l'.acc = l.acc) (h8 : l'.queue = l.queue) : SameElsewhere l l' :=
  ⟨overrides_of_fields h1 h2 h3 h4 h5, reports_of_fields h6 h7 h8⟩

/-- A fold of steps that leave the two parts alone leaves them alone. -/
theorem SameElsewhere.foldl {α : Type} (f : Live → α → Live) (hf : ∀ l a, SameElsewhere l (f l a)) (xs : List α)
    (l : Live) : SameElsewhere l (xs.foldl f l) :=
  foldl_keeps (fun l' => SameElsewhere l l') f (fun _ _ h => h.trans (hf _ _)) xs l (SameElsewhere.refl l)

theorem emptyRing_same (q : Patch) (l : Live) : SameElsewhere l (emptyRing q l) :=
  .of_fields rfl rfl rfl rfl rfl rfl rfl rfl

theorem flushRing_same (q : Patch) (l : Live) : SameElsewhere l (flushRing q l) :=
  (SameElsewhere.foldl _ (fun l p => .of_beyond (by simp [flushPort])) _ l).trans (emptyRing_same q _)

theorem defaultFloor_same (c : Settings) (l : Live) (q : Patch) : SameElsewhere l (defaultFloor c l q) :=
  .of_fields rfl rfl rfl rfl rfl rfl rfl rfl

theorem setFreezing_same (l : Live) (q : Patch) (b : Bool) : SameElsewhere l (l.setFreezing q b) :=
  .of_fields rfl rfl rfl rfl rfl rfl rfl rfl

theorem raise_same (l : Live) (src : Source) (e : Cond) : SameElsewhere l (l.raise src e) :=
  .of_fields rfl rfl rfl rfl rfl rfl rfl rfl

theorem arbitrateFresh_same (c : Settings) (l : Live) (q : Patch) : SameElsewhere l (arbitrateFresh c l q) :=
  .of_beyond (by simp [arbitrateFresh])

theorem endSwitch_same (involved : List Patch) (outcome : LastOutcome) (l : Live) :
    SameElsewhere l (endSwitch involved outcome l) :=
  .of_fields rfl rfl rfl rfl rfl rfl rfl rfl

theorem flipBanks_same (l : Live) : SameElsewhere l (flipBanks l) := .of_fields rfl rfl rfl rfl rfl rfl rfl rfl

theorem startFresh_same (c : Settings) (l : Live) (q : Patch) : SameElsewhere l (startFresh c l q) :=
  (defaultFloor_same c l q).trans (emptyRing_same q _)

theorem swapFault_same (c : Settings) (involved : List Patch) (l : Live) (p : Port) :
    SameElsewhere l (swapFault c involved l p) := by
  unfold swapFault
  split
  · exact .of_beyond (by simp)
  · exact .refl l

theorem swap_same (c : Settings) (involved : List Patch) (outcome : LastOutcome) (l : Live) :
    SameElsewhere l (swap c involved outcome l) :=
  (flipBanks_same l).trans <| (SameElsewhere.foldl _ (startFresh_same c) involved _).trans <|
    (SameElsewhere.foldl _ (swapFault_same c involved) allPorts _).trans <|
    (SameElsewhere.foldl _ (arbitrateFresh_same c) involved _).trans <|
    (endSwitch_same involved outcome _).trans (raise_same _ _ _)

theorem cutPatch_same (c : Settings) (l : Live) (q : Patch) : SameElsewhere l (cutPatch c l q) :=
  (SameElsewhere.of_beyond (l.setCtx_beyondFloors q _)).trans <|
    (SameElsewhere.foldl _ (fun l p => .of_beyond (unkey_beyondFloors c p l)) _ _).trans (emptyRing_same q _)

theorem force_same (c : Settings) (involved : List Patch) (l : Live) : SameElsewhere l (force c involved l) :=
  (SameElsewhere.foldl _ (cutPatch_same c) involved l).trans (swap_same c involved .forced _)

theorem thawPatch_same (c : Settings) (l : Live) (q : Patch) : SameElsewhere l (thawPatch c l q) :=
  (setFreezing_same l q false).trans (.of_beyond (installFloor_beyondFloors _ _ _ _))

theorem abort_same (c : Settings) (reason : AbortReason) (l : Live) : SameElsewhere l (abort c reason l) :=
  (SameElsewhere.foldl _ (thawPatch_same c) _ l).trans <| (endSwitch_same _ _ _).trans (raise_same _ _ _)

theorem setPending_same (involved : List Patch) (grace : Nat) (l : Live) :
    SameElsewhere l (setPending involved grace l) := by
  unfold setPending
  exact (SameElsewhere.foldl _ (fun l q => setFreezing_same l q true) involved l).trans
    (.of_fields rfl rfl rfl rfl rfl rfl rfl rfl)

theorem idleTest_same (c : Settings) (l : Live) : SameElsewhere l (idleTest c l) := by
  unfold idleTest
  split
  · split
    · exact force_same _ _ _
    · exact swap_same _ _ _ _
  · exact .refl l

/-- What an idle test does: nothing, or, with every involved patch of a pending switch idle, the swap, or the force where
the expiry of the grace timer goes first (R122, R123). -/
theorem idleTest_cases (c : Settings) (l : Live) :
    idleTest c l = l ∨
      (switchPending l = true ∧ l.switch.involved.all (idle c l) = true ∧
        ((expiresFirst l = false ∧ idleTest c l = swap c l.switch.involved .done l) ∨
          (expiresFirst l = true ∧ idleTest c l = force c l.switch.involved l))) := by
  unfold idleTest
  split
  · rename_i h
    simp only [Bool.and_eq_true] at h
    refine .inr ⟨h.1, h.2, ?_⟩
    split <;> simp_all
  · exact .inl rfl

/-- Setting the expiry before the idle test touches the switch's marker alone. -/
theorem putGraceFirst_same (l : Live) : SameElsewhere l (putGraceFirst l) := by
  unfold putGraceFirst
  split
  · exact .of_fields rfl rfl rfl rfl rfl rfl rfl rfl
  · exact .refl l

/-! ### Recording -/

@[simp] theorem record_rest (masks : Vector Byte 27) (l : Live) (e : Source × Cond) :
    (record masks l e).active = l.active ∧ (record masks l e).rx = l.rx ∧ (record masks l e).fla = l.fla ∧
      (record masks l e).rings = l.rings ∧ (record masks l e).tx = l.tx ∧ (record masks l e).ovr = l.ovr ∧
      (record masks l e).lamps = l.lamps ∧ (record masks l e).guestHolder = l.guestHolder ∧
      (record masks l e).guestQueue = l.guestQueue ∧ (record masks l e).gen = l.gen ∧
      (record masks l e).switch = l.switch ∧ (record masks l e).raised = l.raised :=
  ⟨rfl, rfl, rfl, rfl, rfl, rfl, rfl, rfl, rfl, rfl, rfl, rfl⟩

/-- The live state with the condition sets, the report queue and the raised conditions set aside. -/
def Live.beyondReports (l : Live) : Live :=
  { l with exc := Vector.replicate 27 0, acc := Vector.replicate 27 0, queue := [], raised := [] }

/-- Recording changes the condition sets, the report queue and the list of what is still to be recorded alone (R144). -/
@[simp] theorem recordRaised_beyondReports (c : Settings) (l : Live) :
    (recordRaised c l).beyondReports = l.beyondReports := by
  have h : ∀ (es : List (Source × Cond)) (l' : Live), (es.foldl (record c.masks) l').beyondReports = l'.beyondReports := by
    intro es
    induction es with
    | nil => intro l'; rfl
    | cons e es ih => intro l'; exact (ih _).trans rfl
  exact (h _ _).trans rfl

/-- Nothing waits to be recorded after a recording (R145). -/
@[simp] theorem recordRaised_raised (c : Settings) (l : Live) : (recordRaised c l).raised = [] := by
  have h : ∀ (es : List (Source × Cond)) (l' : Live), (es.foldl (record c.masks) l').raised = l'.raised := by
    intro es
    induction es with
    | nil => intro l'; rfl
    | cons e es ih => intro l'; exact (ih _).trans rfl
  exact (h _ _).trans rfl

/-- With nothing raised, recording changes nothing. -/
theorem recordRaised_nil (c : Settings) (l : Live) (h : l.raised = []) : recordRaised c l = l := by
  cases l
  simp only at h
  subst h
  rfl

/-- The end of an event leaves the overrides, the lamps, the guest resource and the cadence generator alone. -/
theorem closeEvent_overrides (c : Settings) (l : Live) : (closeEvent c l).overrides = l.overrides := by
  have h1 := (idleTest_same c l).1
  have h2 : (recordRaised c (idleTest c l)).overrides = (idleTest c l).overrides := by
    have hb := recordRaised_beyondReports c (idleTest c l)
    exact overrides_of_fields (congrArg (·.ovr) hb) (congrArg (·.lamps) hb) (congrArg (·.guestHolder) hb)
      (congrArg (·.guestQueue) hb) (congrArg (·.gen) hb)
  exact h2.trans h1

@[simp] theorem closeEvent_raised (c : Settings) (l : Live) : (closeEvent c l).raised = [] := recordRaised_raised _ _

/-- With no switch pending, the end of an event only records. -/
theorem closeEvent_notPending (c : Settings) (l : Live) (h : switchPending l = false) :
    closeEvent c l = recordRaised c l := by
  simp [closeEvent, idleTest, h]

end Sys2Proof.Machine
end

