-- ==== Sys2Proof/Laws/Moves.lean ====
section
/-! SUPPORT. What a step can do, said once: every command takes the settings and the live state through a run of
moves, each one operation of the spec's blocks, and the management channel through a run of channel moves. A law that
every move keeps, every step keeps. -/

namespace Sys2Proof.Machine

/-! ### Moves of the settings and the live state -/

/-- What carrying out an order can come to, but for RESET: the result of one of the orders, or a refusal. -/
inductive OrderOutcome (c : Settings) (l : Live) : OrderResult → Prop
  | refused (st : Status) : OrderOutcome c l (refuse st c l)
  | answered (data : List Byte) : OrderOutcome c l (answer c l data)
  | setPort (body : List Byte) : OrderOutcome c l (orderSetPort body c l)
  | clearPort (body : List Byte) : OrderOutcome c l (orderClearPort body c l)
  | definePatch (body : List Byte) : OrderOutcome c l (orderDefinePatch body c l)
  | setMember (body : List Byte) : OrderOutcome c l (orderSetMember body c l)
  | deletePatch (body : List Byte) : OrderOutcome c l (orderDeletePatch body c l)
  | clearBank (body : List Byte) : OrderOutcome c l (orderClearBank body c l)
  | switchPlan (body : List Byte) : OrderOutcome c l (orderSwitchPlan body c l)
  | abortSwitch (body : List Byte) : OrderOutcome c l (orderAbortSwitch body c l)
  | declareMayday (body : List Byte) : OrderOutcome c l (orderDeclareMayday body c l)
  | clearMayday (body : List Byte) : OrderOutcome c l (orderClearMayday body c l)
  | soundAlert (body : List Byte) : OrderOutcome c l (orderSoundAlert body c l)
  | cancelAlert (body : List Byte) : OrderOutcome c l (orderCancelAlert body c l)
  | loadTone (body : List Byte) : OrderOutcome c l (orderLoadTone body c l)
  | setCadence (body : List Byte) : OrderOutcome c l (orderSetCadence body c l)
  | flags (tooHigh : Bool) (f : Port → Bool → Bool) (keysw : Bool) :
      OrderOutcome c l (flagOperation tooHigh f c l keysw)
  | lock (hard plk keysw : Bool) : OrderOutcome c l (lockOperation hard plk c l keysw)
  | setReportMask (body : List Byte) : OrderOutcome c l (orderSetReportMask body c l)
  | clearConditions (body : List Byte) : OrderOutcome c l (orderClearConditions body c l)

/-- One move of the settings and the live state. -/
inductive LiveMove : Settings × Live → Settings × Live → Prop
  | enterHang (c : Settings) (l : Live) (p : Port) : LiveMove (c, l) (c, enterHangNow c l p)
  | cadenceEnd (c : Settings) (l : Live) (h : cadenceDue l.gen = true) :
      LiveMove (c, l) (c, { l with gen := endCadenceCount c.cadence l.gen })
  | ringWork (c : Settings) (l : Live) (received : Vector Sample 18) : LiveMove (c, l) (c, ringWork c received l)
  | tick (c : Settings) (l : Live) (hdi : Vector Byte 45) : LiveMove (c, l) (c, tickLive c hdi l)
  | corRise (c : Settings) (l : Live) (p : Port) : LiveMove (c, l) (c, closeEvent c (corRise p c l))
  | corFall (c : Settings) (l : Live) (p : Port) : LiveMove (c, l) (c, closeEvent c (corFall p c l))
  | emergencyRise (c : Settings) (l : Live) (p : Port) : LiveMove (c, l) (c, closeEvent c (emergencyRise p c l))
  | emgFall (c : Settings) (l : Live) (p : Port) : LiveMove (c, l) (c, closeEvent c (emgFall p c l))
  | talkTimeUp (c : Settings) (l : Live) (p : Port) : LiveMove (c, l) (c, closeEvent c (talkTimeUp p c l))
  | keyUpDone (c : Settings) (l : Live) (p : Port) : LiveMove (c, l) (c, closeEvent c (keyUpDone l p))
  | hangUp (c : Settings) (l : Live) (p : Port) : LiveMove (c, l) (c, closeEvent c (hangUp p c l))
  | confirmUp (c : Settings) (l : Live) (p : Port) : LiveMove (c, l) (c, closeEvent c (confirmUp p c l))
  | alertTimer (c : Settings) (l : Live) (q : Patch) (h : underAlert l q = true) :
      LiveMove (c, l) (c, closeEvent c (endAlert c l q))
  | grace (c : Settings) (l : Live) (h : switchPending l = true) :
      LiveMove (c, l) (c, closeEvent c (force c l.switch.involved l))
  | graceFirst (c : Settings) (l : Live) : LiveMove (c, l) (c, putGraceFirst l)
  | order (c : Settings) (l : Live) (r : OrderResult) (h : OrderOutcome c l r) : LiveMove (c, l) (r.cfg, r.live)
  | report (c : Settings) (l : Live) (src : Source) (rest : List Source) (h : l.queue = src :: rest) :
      LiveMove (c, l) (c, reportTaken src rest l)
  | resetOrder (c : Settings) (l : Live) : LiveMove (c, l) (c, l.afterResetOrder c)
  | powerOn (c : Settings) (l : Live) : LiveMove (c, l) (Settings.powerOn, Live.fresh 0 (fun _ => .single))
  | rst (c : Settings) (l : Live) : LiveMove (c, l) (c.afterRst, Live.fresh 0 (fun _ => .single))
  | restart (c : Settings) (l : Live) : LiveMove (c, l) (c, l.withRestart)

/-- A run of moves. -/
abbrev LiveRun : Settings × Live → Settings × Live → Prop := Relation.ReflTransGen LiveMove

/-- A law of the settings and the live state that every move keeps, every run keeps. -/
theorem LiveRun.keeps {P : Settings → Live → Prop} (hP : ∀ a b, LiveMove a b → P a.1 a.2 → P b.1 b.2)
    {a b : Settings × Live} (h : LiveRun a b) (ha : P a.1 a.2) : P b.1 b.2 := by
  induction h with
  | refl => exact ha
  | tail _ hm ih => exact hP _ _ hm ih

/-- The settings and the live state of a state. -/
def State.core (s : State) : Settings × Live := (s.cfg, s.live)

theorem LiveRun.single {a b : Settings × Live} (h : LiveMove a b) : LiveRun a b := Relation.ReflTransGen.single h

/-- A fold of operations, each a run, is a run. -/
theorem LiveRun.foldl {α : Type} (f : State → α → State) (hf : ∀ s a, LiveRun s.core (f s a).core) (xs : List α)
    (s : State) : LiveRun s.core (xs.foldl f s).core :=
  foldl_keeps (fun t => LiveRun s.core t.core) f (fun _ _ h => h.trans (hf _ _)) xs s .refl

/-! ### What comes about at once -/

@[simp] theorem catchUp_cfg (s : State) : (catchUp s).cfg = s.cfg := by simp only [catchUp]

@[simp] theorem catchUp_hwi (s : State) : (catchUp s).hwi = s.hwi := by simp only [catchUp]

@[simp] theorem catchUp_pending (s : State) : (catchUp s).pending = s.pending := by simp only [catchUp]

@[simp] theorem catchUp_mci (s : State) : (catchUp s).mci = catchUpChannel s.mci := by simp only [catchUp]

@[simp] theorem catchUp_live (s : State) : (catchUp s).live = catchUpLive s.cfg s.live := by simp only [catchUp]

theorem enterHangs_run (c : Settings) (ps : List Port) (l : Live) :
    LiveRun (c, l) (c, ps.foldl (enterHangNow c) l) := by
  induction ps generalizing l with
  | nil => exact .refl
  | cons p ps ih => exact (LiveRun.single (.enterHang c l p)).trans (ih _)

theorem endCadence_run (c : Settings) (l : Live) : LiveRun (c, l) (c, endCadence c l) := by
  unfold endCadence
  split
  · rename_i h
    exact .single (.cadenceEnd _ _ h)
  · exact .refl

theorem catchUpLive_run (c : Settings) (l : Live) : LiveRun (c, l) (c, catchUpLive c l) :=
  (enterHangs_run c allPorts l).trans (endCadence_run c _)

@[simp] theorem catchUp_core (s : State) : (catchUp s).core = (s.cfg, catchUpLive s.cfg s.live) := by
  simp only [catchUp, State.core]

theorem catchUp_run (s : State) : LiveRun s.core (catchUp s).core := by
  rw [catchUp_core]; exact catchUpLive_run s.cfg s.live

/-- Entries into HANG change transmit machines alone. -/
theorem enterHangs_rest (c : Settings) (ps : List Port) (l : Live) :
    (ps.foldl (enterHangNow c) l).beyondFloors = l.beyondFloors ∧ (ps.foldl (enterHangNow c) l).rx = l.rx ∧
      (ps.foldl (enterHangNow c) l).fla = l.fla := by
  refine foldl_keeps (fun l' => l'.beyondFloors = l.beyondFloors ∧ l'.rx = l.rx ∧ l'.fla = l.fla) (enterHangNow c)
    (fun l' p h => ?_) ps l ⟨rfl, rfl, rfl⟩
  unfold enterHangNow
  simp only
  split
  · exact ⟨by rw [Live.setTx_beyondFloors]; exact h.1, h.2.1, h.2.2⟩
  · exact h

/-- Catching up changes transmit machines and the cadence generator alone. -/
theorem catchUpLive_rest (c : Settings) (l : Live) :
    (catchUpLive c l).rx = l.rx ∧ (catchUpLive c l).fla = l.fla ∧ (catchUpLive c l).active = l.active ∧
      (catchUpLive c l).rings = l.rings ∧ (catchUpLive c l).ovr = l.ovr ∧ (catchUpLive c l).lamps = l.lamps ∧
      (catchUpLive c l).guestHolder = l.guestHolder ∧ (catchUpLive c l).guestQueue = l.guestQueue ∧
      (catchUpLive c l).switch = l.switch ∧ (catchUpLive c l).exc = l.exc ∧ (catchUpLive c l).acc = l.acc ∧
      (catchUpLive c l).queue = l.queue ∧ (catchUpLive c l).raised = l.raised := by
  have h := enterHangs_rest c allPorts l
  have f := beyondFloors_fields h.1
  unfold catchUpLive endCadence
  split <;> simp [enterHangs, h.2.1, h.2.2, f]

/-! ### Runs of the operations -/

theorem finishRing_run (s : State) : LiveRun s.core (finishRing s).core := by
  unfold finishRing
  split
  · refine (catchUpLive_run s.cfg s.live).trans ?_
    simp only [State.core, catchUp_cfg, catchUp_live, catchUp_hwi]
    exact .single (.ringWork _ _ _)
  · exact .refl

@[simp] theorem answered_core (kind : Byte) (r : OrderResult) (s : State) : (answered kind r s).core = (r.cfg, r.live) := by
  simp only [answered, State.core]

theorem answered_run (kind : Byte) (r : OrderResult) (s : State) (h : OrderOutcome s.cfg s.live r) :
    LiveRun s.core (answered kind r s).core := by
  rw [answered_core]; exact .single (.order _ _ r h)

theorem carryOut_run (kind : Byte) (body : List Byte) (f : Settings → Live → OrderResult)
    (h : ∀ c l, OrderOutcome c l (f c l)) (s : State) : LiveRun s.core (carryOut kind body f s).core := by
  unfold carryOut
  split
  · exact (catchUp_run s).trans (answered_run kind _ _ (h _ _))
  · exact .refl

theorem carryOutAfterRing_run (kind : Byte) (body : List Byte) (f : Settings → Live → OrderResult)
    (h : ∀ c l, OrderOutcome c l (f c l)) (s : State) : LiveRun s.core (carryOutAfterRing kind body f s).core := by
  unfold carryOutAfterRing
  split
  · exact (finishRing_run s).trans ((catchUp_run _).trans (answered_run kind _ _ (h _ _)))
  · exact .refl

theorem carryOutWithKey_run (kind : Byte) (body : List Byte) (k : Bool) (f : Settings → Live → Bool → OrderResult)
    (h : ∀ c l, OrderOutcome c l (f c l k)) (s : State) : LiveRun s.core (carryOutWithKey kind body k f s).core := by
  unfold carryOutWithKey
  split
  · exact (catchUp_run { s with hwi := { s.hwi with keysw := k } }).trans (answered_run kind _ _ (h _ _))
  · exact .refl

theorem carryOperation_run (op : Byte) (body : List Byte) (k : Bool) (f : Settings → Live → Bool → OrderResult)
    (h : ∀ c l, OrderOutcome c l (f c l k)) (s : State) : LiveRun s.core (carryOperation op body k f s).core := by
  unfold carryOperation
  split
  · exact carryOutWithKey_run _ _ _ _ h s
  · exact .refl

theorem takeEvent_run (due : Bool) (f : Settings → Live → Live) (s : State)
    (h : due = true → LiveMove (s.cfg, catchUpLive s.cfg s.live)
      (s.cfg, closeEvent s.cfg (f s.cfg (catchUpLive s.cfg s.live)))) :
    LiveRun s.core (takeEvent due f s).core := by
  unfold takeEvent
  split
  · rename_i hd
    refine (catchUpLive_run s.cfg s.live).trans ?_
    simp only [State.core, catchUp_cfg, catchUp_live]
    exact .single (h hd)
  · exact .refl

/-! ### Outcomes of the orders that only read or refuse -/

theorem outcome_identify (body : List Byte) (c : Settings) (l : Live) : OrderOutcome c l (orderIdentify body c l) := by
  unfold orderIdentify; split <;> first | exact .refused _ | exact .answered _

theorem outcome_readPort (body : List Byte) (c : Settings) (l : Live) : OrderOutcome c l (orderReadPort body c l) := by
  unfold orderReadPort; repeat' split
  all_goals first | exact .refused _ | exact .answered _

theorem outcome_readPatch (body : List Byte) (c : Settings) (l : Live) :
    OrderOutcome c l (orderReadPatch body c l) := by
  unfold orderReadPatch; repeat' split
  all_goals first | exact .refused _ | exact .answered _

theorem outcome_readRing (body : List Byte) (c : Settings) (l : Live) : OrderOutcome c l (orderReadRing body c l) := by
  unfold orderReadRing; repeat' split
  all_goals first | exact .refused _ | exact .answered _

theorem outcome_readConditions (body : List Byte) (c : Settings) (l : Live) :
    OrderOutcome c l (orderReadConditions body c l) := by
  unfold orderReadConditions; repeat' split
  all_goals first | exact .refused _ | exact .answered _

theorem outcome_readProtection (body : List Byte) (c : Settings) (l : Live) (k : Bool) :
    OrderOutcome c l (orderReadProtection body c l k) := by
  unfold orderReadProtection; split <;> first | exact .refused _ | exact .answered _

theorem outcome_badProtection (body : List Byte) (c : Settings) (l : Live) (k : Bool) :
    OrderOutcome c l (orderBadProtection body c l k) := by
  unfold orderBadProtection; split <;> exact .refused _

theorem outcome_unknown (c : Settings) (l : Live) : OrderOutcome c l (orderUnknown c l) := .refused _

/-! ### Resets, events and byte places -/

theorem carryReset_run (body : List Byte) (s : State) : LiveRun s.core (carryReset body s).core := by
  unfold carryReset
  split
  · exact carryOut_run _ _ _ (fun c l => .refused _) s
  · split
    · exact .single (.resetOrder _ _)
    · exact .refl

theorem takeCor_run (p : Port) (s : State) : LiveRun s.core (takeCor p s).core := by
  unfold takeCor
  split
  · exact takeEvent_run _ _ s (fun _ => .corRise _ _ p)
  · exact takeEvent_run _ _ s (fun _ => .corFall _ _ p)
  · exact .refl

theorem takeEmg_run (p : Port) (s : State) : LiveRun s.core (takeEmg p s).core := by
  unfold takeEmg
  split
  · exact takeEvent_run _ _ s (fun _ => .emergencyRise _ _ p)
  · exact takeEvent_run _ _ s (fun _ => .emgFall _ _ p)
  · exact .refl

theorem takeTalkTime_run (p : Port) (s : State) : LiveRun s.core (takeTalkTime p s).core := by
  unfold takeTalkTime; exact takeEvent_run _ _ s (fun _ => .talkTimeUp _ _ p)

theorem takeKeyUp_run (p : Port) (s : State) : LiveRun s.core (takeKeyUp p s).core := by
  unfold takeKeyUp; exact takeEvent_run _ _ s (fun _ => .keyUpDone _ _ p)

theorem takeHang_run (p : Port) (s : State) : LiveRun s.core (takeHang p s).core := by
  unfold takeHang; exact takeEvent_run _ _ s (fun _ => .hangUp _ _ p)

theorem takeKeyConfirm_run (p : Port) (s : State) : LiveRun s.core (takeKeyConfirm p s).core := by
  unfold takeKeyConfirm; exact takeEvent_run _ _ s (fun _ => .confirmUp _ _ p)

theorem takeAlertTimer_run (q : Patch) (s : State) : LiveRun s.core (takeAlertTimer q s).core := by
  refine takeEvent_run _ _ s (fun h => .alertTimer _ _ q ?_)
  simp only [Bool.and_eq_true] at h
  have hu := h.1
  unfold underAlert ctxOf at hu ⊢
  rw [(catchUpLive_rest _ _).2.1]
  exact hu

theorem takeGrace_run (s : State) : LiveRun s.core (takeGrace s).core := by
  refine takeEvent_run _ _ s (fun h => .grace _ _ ?_)
  simp only [Bool.and_eq_true] at h
  have hu := h.1
  unfold switchPending at hu ⊢
  rw [(catchUpLive_rest _ _).2.2.2.2.2.2.2.2.1]
  exact hu

@[simp] theorem continueOnce_core (s : State) : (continueOnce s).core = s.core := by
  unfold continueOnce putLane; repeat' split
  all_goals rfl

@[simp] theorem continueMessage_core (s : State) : (continueMessage s).core = s.core := by
  simp [continueMessage]

@[simp] theorem startMessage_core (msg : List Byte) (s : State) : (startMessage msg s).core = s.core := by
  simp only [startMessage, continueMessage_core]; rfl

@[simp] theorem sendReply_core (body : List Byte) (s : State) : (sendReply body s).core = s.core := by
  simp only [sendReply, startMessage_core]; rfl

theorem sendReport_run (src : Source) (rest : List Source) (s : State) (h : s.live.queue = src :: rest) :
    LiveRun s.core (sendReport src s).core := by
  have hm : LiveMove s.core (s.cfg, reportTaken src s.live.queue.tail s.live) := by
    rw [h]; exact .report _ _ src rest h
  simp only [sendReport, startMessage_core]
  exact .single hm

theorem beforeLane_run (s : State) : LiveRun s.core (beforeLane s).core :=
  (catchUp_run s).trans ((carryReset_run [] _).trans (catchUp_run _))

theorem chooseLane_run (s : State) : LiveRun s.core (chooseLane s).core := by
  unfold chooseLane
  split
  · simp only [sendReply_core]; exact .refl
  · split
    · rename_i src rest h
      exact sendReport_run src rest s h
    · exact .refl

theorem fillLane_run (s : State) : LiveRun s.core (fillLane s).core := by
  unfold fillLane
  split
  · simp only
    split
    · exact (beforeLane_run s).trans (chooseLane_run _)
    · simp only [continueOnce_core]; exact beforeLane_run s
  · exact .refl

theorem startReply_run (s : State) : LiveRun s.core (startReply s).core := by
  unfold startReply
  simp only
  split
  · split
    · simp only [sendReply_core]; exact beforeLane_run s
    · exact .refl
  · exact .refl

theorem startReport_run (s : State) : LiveRun s.core (startReport s).core := by
  unfold startReport
  simp only
  split
  · split
    · rename_i src h
      have hq : ∃ rest, (beforeLane s).live.queue = src :: rest := by
        unfold nextReport at h
        split at h
        · simp at h
        · exact List.head?_eq_some_iff.1 h
      obtain ⟨rest, hq⟩ := hq
      exact (beforeLane_run s).trans (sendReport_run src rest _ hq)
    · exact .refl
  · exact .refl

theorem takeByte_run (s : State) : LiveRun s.core (takeByte s).core := by
  unfold takeByte
  split
  · exact .refl
  · have h : ∀ m : Channel, State.core { catchUp s with mci := m } = (catchUp s).core := fun _ => by
      simp only [State.core]
    simp only [h]
    exact catchUp_run s

/-! ### Runs of orders by kind, of tasks and of frames -/

theorem outcome_protect (body : List Byte) (c : Settings) (l : Live) (k : Bool) :
    OrderOutcome c l (orderProtect body c l k) := by unfold orderProtect; exact .flags _ _ _

theorem outcome_unprotect (body : List Byte) (c : Settings) (l : Live) (k : Bool) :
    OrderOutcome c l (orderUnprotect body c l k) := by unfold orderUnprotect; exact .flags _ _ _

theorem outcome_protectAll (c : Settings) (l : Live) (k : Bool) : OrderOutcome c l (orderProtectAll c l k) := by
  unfold orderProtectAll; exact .flags _ _ _

theorem outcome_unprotectAll (c : Settings) (l : Live) (k : Bool) : OrderOutcome c l (orderUnprotectAll c l k) := by
  unfold orderUnprotectAll; exact .flags _ _ _

theorem outcome_setLock (c : Settings) (l : Live) (k : Bool) : OrderOutcome c l (orderSetLock c l k) := by
  unfold orderSetLock; exact .lock _ _ _

theorem outcome_clearLock (c : Settings) (l : Live) (k : Bool) : OrderOutcome c l (orderClearLock c l k) := by
  unfold orderClearLock; exact .lock _ _ _

theorem carryProtection_run (body : List Byte) (s : State) : LiveRun s.core (carryProtection body s).core := by
  unfold carryProtection
  simp only
  repeat' split
  · exact carryOutWithKey_run _ _ _ (orderProtect body) (fun c l => outcome_protect body c l _) s
  · exact carryOutWithKey_run _ _ _ (orderUnprotect body) (fun c l => outcome_unprotect body c l _) s
  · exact carryOutWithKey_run _ _ _ orderProtectAll (fun c l => outcome_protectAll c l _) s
  · exact carryOutWithKey_run _ _ _ orderUnprotectAll (fun c l => outcome_unprotectAll c l _) s
  · exact carryOutWithKey_run _ _ _ orderSetLock (fun c l => outcome_setLock c l _) s
  · exact carryOutWithKey_run _ _ _ orderClearLock (fun c l => outcome_clearLock c l _) s
  · exact carryOutWithKey_run _ _ _ (orderBadProtection body) (fun c l => outcome_badProtection body c l _) s

theorem carryByKind_run (kind : Byte) (body : List Byte) (s : State) :
    LiveRun s.core (carryByKind kind body s).core := by
  unfold carryByKind
  split
  · exact carryOut_run _ _ _ (outcome_identify body) s
  · exact carryReset_run body s
  · exact carryOut_run _ _ _ (outcome_readPort body) s
  · exact carryOut_run _ _ _ (fun c l => .setPort body) s
  · exact carryOut_run _ _ _ (fun c l => .clearPort body) s
  · exact carryOut_run _ _ _ (outcome_readPatch body) s
  · exact carryOutAfterRing_run _ _ _ (fun c l => .definePatch body) s
  · exact carryOutAfterRing_run _ _ _ (fun c l => .setMember body) s
  · exact carryOut_run _ _ _ (fun c l => .deletePatch body) s
  · exact carryOut_run _ _ _ (fun c l => .clearBank body) s
  · exact carryOut_run _ _ _ (fun c l => .switchPlan body) s
  · exact carryOut_run _ _ _ (fun c l => .abortSwitch body) s
  · exact carryOut_run _ _ _ (fun c l => .declareMayday body) s
  · exact carryOut_run _ _ _ (fun c l => .clearMayday body) s
  · exact carryOut_run _ _ _ (fun c l => .soundAlert body) s
  · exact carryOut_run _ _ _ (fun c l => .cancelAlert body) s
  · exact carryOutAfterRing_run _ _ _ (fun c l => .loadTone body) s
  · exact carryOutAfterRing_run _ _ _ (fun c l => .setCadence body) s
  · exact carryProtection_run body s
  · exact carryOutWithKey_run _ _ _ (orderReadProtection body) (fun c l => outcome_readProtection body c l _) s
  · exact carryOut_run _ _ _ (fun c l => .setReportMask body) s
  · exact carryOut_run _ _ _ (outcome_readConditions body) s
  · exact carryOut_run _ _ _ (fun c l => .clearConditions body) s
  · exact carryOut_run _ _ _ (outcome_readRing body) s
  · exact carryOut_run _ _ _ outcome_unknown s

theorem runTask_run (s : State) (k : FrameTask) : LiveRun s.core (runTask s k).core := by
  cases k with
  | ring => exact finishRing_run s
  | byte => exact takeByte_run s
  | order =>
    simp only [runTask, carryHeld]
    split
    · split
      · exact carryByKind_run _ _ s
      · exact .refl
    · exact .refl
  | lane => exact fillLane_run s
  | cor p => exact takeCor_run p s
  | emg p => exact takeEmg_run p s
  | talkTime p => exact takeTalkTime_run p s
  | keyUp p => exact takeKeyUp_run p s
  | hang p => exact takeHang_run p s
  | keyConfirm p => exact takeKeyConfirm_run p s
  | alert q => exact takeAlertTimer_run q s
  | grace => exact takeGrace_run s
  | graceFirst => exact .single (.graceFirst _ _)

theorem settleFrame_run (s : State) : LiveRun s.core (settleFrame s).core :=
  (LiveRun.foldl _ runTask_run _ s).trans (catchUp_run _)

theorem openFrame_run (hdi : Vector Byte 45) (k : Bool) (s : State) : LiveRun s.core (openFrame hdi k s).core := by
  simp only [openFrame, continueMessage_core]
  exact .single (.tick _ _ hdi)

theorem arrive_run (hdi : Vector Byte 45) (k : Bool) (tasks : List FrameTask) (s : State) :
    LiveRun s.core (arrive hdi k tasks s).core := by
  unfold arrive
  split
  · exact .refl
  · exact (catchUp_run s).trans ((openFrame_run hdi k _).trans (LiveRun.foldl _ runTask_run _ _))

@[simp] theorem formOutbound_core (s : State) : (formOutbound s).core = s.core := by
  unfold formOutbound; split <;> rfl

@[simp] theorem beginFrame_core (n : Nat) (s : State) : (beginFrame n s).core = s.core := rfl

/-- What a step can do to the settings and the live state: a run of moves (every command). -/
theorem exec_run (i : Instr) (s t : State) (h : exec i s = .next t) : LiveRun s.core t.core := by
  cases i <;> injection h with h <;> subst h
  case powerOnReset b =>
    refine Relation.ReflTransGen.trans (.single (.powerOn s.cfg s.live)) ?_
    show LiveRun _ (poweredOn b s).core
    cases b
    · exact .single (.restart _ _)
    · exact .refl
  case rstReset => exact .single (.rst _ _)
  case rstRelease =>
    split
    · exact .single (.restart _ _)
    · exact .refl
  case frameArrival hdi k tasks =>
    split
    · exact arrive_run hdi k tasks s
    · exact .refl
  case earlyHfsPulse n =>
    split <;> exact .refl
  case messageComplete => exact .refl
  case messageAbandoned => exact .refl
  case orderTaken => exact .refl
  case owedRefusal => exact .refl
  case replyStart => exact startReply_run s
  case reportStart k =>
    split
    · exact startReport_run { s with hwi := { s.hwi with keysw := k } }
    · exact .refl
  case identify body => exact carryOut_run _ _ _ (outcome_identify body) s
  case readPort body => exact carryOut_run _ _ _ (outcome_readPort body) s
  case setPort body => exact carryOut_run _ _ _ (fun c l => .setPort body) s
  case clearPort body => exact carryOut_run _ _ _ (fun c l => .clearPort body) s
  case readPatch body => exact carryOut_run _ _ _ (outcome_readPatch body) s
  case definePatch body => exact carryOutAfterRing_run _ _ _ (fun c l => .definePatch body) s
  case setMember body => exact carryOutAfterRing_run _ _ _ (fun c l => .setMember body) s
  case deletePatch body => exact carryOut_run _ _ _ (fun c l => .deletePatch body) s
  case clearBank body => exact carryOut_run _ _ _ (fun c l => .clearBank body) s
  case switchPlan body => exact carryOut_run _ _ _ (fun c l => .switchPlan body) s
  case abortSwitch body => exact carryOut_run _ _ _ (fun c l => .abortSwitch body) s
  case declareMayday body => exact carryOut_run _ _ _ (fun c l => .declareMayday body) s
  case clearMayday body => exact carryOut_run _ _ _ (fun c l => .clearMayday body) s
  case soundAlert body => exact carryOut_run _ _ _ (fun c l => .soundAlert body) s
  case cancelAlert body => exact carryOut_run _ _ _ (fun c l => .cancelAlert body) s
  case loadTone body => exact carryOutAfterRing_run _ _ _ (fun c l => .loadTone body) s
  case setCadence body => exact carryOutAfterRing_run _ _ _ (fun c l => .setCadence body) s
  case protect body k => exact carryOperation_run _ _ _ (orderProtect body) (fun c l => outcome_protect body c l k) s
  case unprotect body k => exact carryOperation_run _ _ _ (orderUnprotect body) (fun c l => outcome_unprotect body c l k) s
  case protectAll body k => exact carryOperation_run _ _ _ orderProtectAll (fun c l => outcome_protectAll c l k) s
  case unprotectAll body k => exact carryOperation_run _ _ _ orderUnprotectAll (fun c l => outcome_unprotectAll c l k) s
  case setLock body k => exact carryOperation_run _ _ _ orderSetLock (fun c l => outcome_setLock c l k) s
  case clearLock body k => exact carryOperation_run _ _ _ orderClearLock (fun c l => outcome_clearLock c l k) s
  case readProtection body k => exact carryOutWithKey_run _ _ _ (orderReadProtection body) (fun c l => outcome_readProtection body c l _) s
  case setReportMask body => exact carryOut_run _ _ _ (fun c l => .setReportMask body) s
  case readConditions body => exact carryOut_run _ _ _ (outcome_readConditions body) s
  case clearConditions body => exact carryOut_run _ _ _ (fun c l => .clearConditions body) s
  case readRing body => exact carryOut_run _ _ _ (outcome_readRing body) s
  case reset body => exact carryReset_run body s
  case corSettledRise p => exact takeEvent_run _ _ s (fun _ => .corRise _ _ p)
  case corSettledFall p => exact takeEvent_run _ _ s (fun _ => .corFall _ _ p)
  case emergencyRise p => exact takeEvent_run _ _ s (fun _ => .emergencyRise _ _ p)
  case emgSettledFall p => exact takeEvent_run _ _ s (fun _ => .emgFall _ _ p)
  case talkTimeExpiry p => exact takeTalkTime_run p s
  case keyUpExpiry p => exact takeKeyUp_run p s
  case enterHang p => exact .single (.enterHang _ _ p)
  case hangExpiry p => exact takeHang_run p s
  case keyConfirmExpiry p => exact takeKeyConfirm_run p s
  case alertTimerExpiry q => exact takeAlertTimer_run q s
  case graceTimerExpiry => exact takeGrace_run s
  case cadenceCountEnd => exact endCadence_run s.cfg s.live
  case unknownOrder kind body =>
    split
    · exact .refl
    · exact carryOut_run _ _ _ outcome_unknown s
  case setProtection body k =>
    split
    · exact .refl
    · exact carryOutWithKey_run _ _ _ (orderBadProtection body) (fun c l => outcome_badProtection body c l _) s
  case hfsPulse =>
    split
    · simp only [beginFrame_core, formOutbound_core]; exact settleFrame_run s
    · simp only [beginFrame_core, formOutbound_core]; exact settleFrame_run s
    · exact .refl
  case noPulseByPeriod512 =>
    split
    · have h : ∀ g : Highway, State.core { settleFrame s with hwi := g } = (settleFrame s).core := fun _ => by
        simp only [State.core]
      simp only [h]
      exact settleFrame_run s
    · exact .refl

end Sys2Proof.Machine
end

