-- ==== Sys2Proof/Laws/ChannelMoves.lean ====
section
/-! SUPPORT. What a step can do to the management channel and to the queue, said once: every command takes the channel
through a run of channel moves and leaves the queue alone. -/

namespace Sys2Proof.Machine

/-! ### Moves of the channel -/

/-- One move of the management channel. -/
inductive ChannelMove : Channel → Channel → Prop
  | handOn (m : Channel) : ChannelMove m (handOnParsed m)
  | moveOwed (m : Channel) : ChannelMove m (moveOwed m)
  | takeOrder (m : Channel) : ChannelMove m (takeOrder m)
  | parse (m : Channel) (rtr : Bool) (b : Byte) (rest : List Byte) (hi : m.inBytes = b :: rest)
      (hp : m.parsed = none) (hr : rtr = true → m.buffer.length < Config.bufferSize) :
      ChannelMove m
        { m with inBytes := rest, parser := (parseByte rtr b m.parser).1, parsed := (parseByte rtr b m.parser).2 }
  | answer (m : Channel) (body : List Byte) (h : m.oru.isSome = true) :
      ChannelMove m { m with oru := none, replies := fillReserved body m.replies }
  | arrival (m : Channel) (bytes : List Byte) : ChannelMove m { m.orderDue with inBytes := bytes }
  | replySent (m : Channel) (body : List Byte) (h : nextReply m = some body) :
      ChannelMove m { m with replies := m.replies.tail }
  | sending (m : Channel) (bytes : List Byte) : ChannelMove m { m with out := bytes }
  | fresh (m : Channel) : ChannelMove m Channel.fresh
  | resetOrder (m : Channel) : ChannelMove m m.afterResetOrder

/-- A run of channel moves. -/
abbrev ChannelRun : Channel → Channel → Prop := Relation.ReflTransGen ChannelMove

/-- A law of the channel that every channel move keeps, every run keeps. -/
theorem ChannelRun.keeps {P : Channel → Prop} (hP : ∀ a b, ChannelMove a b → P a → P b) {a b : Channel}
    (h : ChannelRun a b) (ha : P a) : P b := by
  induction h with
  | refl => exact ha
  | tail _ hm ih => exact hP _ _ hm ih

/-- From `s` to `t` the channel makes a run of moves and the queue of waiting commands stays as it is. -/
def Beside (s t : State) : Prop := ChannelRun s.mci t.mci ∧ t.pending = s.pending

theorem Beside.refl (s : State) : Beside s s := ⟨.refl, by simp only⟩

theorem Beside.trans {s t u : State} (h : Beside s t) (k : Beside t u) : Beside s u :=
  ⟨h.1.trans k.1, k.2.trans h.2⟩

/-- Nothing of the channel or the queue has changed. -/
theorem Beside.same {s t : State} (hm : t.mci = s.mci) (hp : t.pending = s.pending) : Beside s t :=
  ⟨by rw [hm], hp⟩

theorem Beside.one {s t : State} (hm : ChannelMove s.mci t.mci) (hp : t.pending = s.pending) : Beside s t :=
  ⟨.single hm, hp⟩

/-- A fold of operations, each of which leaves the queue alone and moves the channel, does the same. -/
theorem Beside.foldl {α : Type} (f : State → α → State) (hf : ∀ s a, Beside s (f s a)) (xs : List α) (s : State) :
    Beside s (xs.foldl f s) :=
  foldl_keeps (fun t => Beside s t) f (fun _ _ h => h.trans (hf _ _)) xs s (.refl s)

/-! ### The operations -/

theorem catchUpChannel_run (m : Channel) : ChannelRun m (catchUpChannel m) := by
  unfold catchUpChannel moveAllOwed
  exact (((Relation.ReflTransGen.single (.handOn m)).tail (.moveOwed _)).tail (.moveOwed _)).tail (.takeOrder _)

theorem owe_parsed (k : Byte) (st : Status) (m : Channel) : (owe k st m).parsed = m.parsed := by
  unfold owe; split <;> rfl

theorem moveOwed_parsed (m : Channel) : (moveOwed m).parsed = m.parsed := by
  unfold moveOwed; split
  · split <;> rfl
  · rfl

theorem takeOrder_parsed (m : Channel) : (takeOrder m).parsed = m.parsed := by
  unfold takeOrder; split
  · split <;> rfl
  · rfl

/-- After catching up the parser holds no finished message (R158, R159). -/
theorem catchUpChannel_parsed (m : Channel) : (catchUpChannel m).parsed = none := by
  unfold catchUpChannel moveAllOwed
  rw [takeOrder_parsed, moveOwed_parsed, moveOwed_parsed]
  unfold handOnParsed handOnMessage handOnAbandoned
  repeat' split
  all_goals first | rfl | assumption | simp only [owe_parsed]

theorem catchUp_beside (s : State) : Beside s (catchUp s) :=
  ⟨by rw [catchUp_mci]; exact catchUpChannel_run _, catchUp_pending s⟩

theorem finishRing_beside (s : State) : Beside s (finishRing s) := by
  unfold finishRing
  split
  · exact (catchUp_beside s).trans (.same (by simp only) (by simp only))
  · exact .refl s

theorem answered_beside (kind : Byte) (r : OrderResult) (s : State) (h : s.mci.oru.isSome = true) :
    Beside s (answered kind r s) :=
  .one (by simp only [answered]; exact .answer _ _ h) (by simp only [answered])

/-- An order held stays held while the channel catches up (R163). -/
theorem catchUpChannel_oru (m : Channel) (h : m.oru.isSome = true) : (catchUpChannel m).oru = m.oru := by
  have ho : ∀ k st (m : Channel), (owe k st m).oru = m.oru := fun k st m => by unfold owe; split <;> rfl
  have hm : ∀ m : Channel, (moveOwed m).oru = m.oru := fun m => by
    unfold moveOwed; split
    · split <;> rfl
    · rfl
  have hp : (handOnParsed m).oru = m.oru := by
    unfold handOnParsed handOnMessage handOnAbandoned
    repeat' split
    all_goals first | rfl | simp only [ho]
  have ht : ∀ m : Channel, m.oru.isSome = true → (takeOrder m).oru = m.oru := fun m h => by
    unfold takeOrder; split
    · rename_i h' _; rw [h'] at h; simp at h
    · rfl
  unfold catchUpChannel moveAllOwed
  have e : (moveOwed (moveOwed (handOnParsed m))).oru = m.oru := by rw [hm, hm, hp]
  rw [ht _ (by rw [e]; exact h), e]

theorem holdsDue_oru {s : State} {kind : Byte} {body : List Byte} (h : holdsDue s kind body = true) :
    s.mci.oru = some { kind := kind, body := body, due := true } := by
  unfold holdsDue at h; exact eq_of_beq h

/-- The ring work does not touch what the ORU holds, beyond the channel's catching up. -/
theorem finishRing_oru (s : State) (h : s.mci.oru.isSome = true) : (finishRing s).mci.oru = s.mci.oru := by
  unfold finishRing
  split
  · simp only [catchUp_mci]; exact catchUpChannel_oru _ h
  · simp only

theorem carryOut_beside (kind : Byte) (body : List Byte) (f : Settings → Live → OrderResult) (s : State) :
    Beside s (carryOut kind body f s) := by
  unfold carryOut
  split
  · rename_i h
    have ho := holdsDue_oru h
    refine (catchUp_beside s).trans (answered_beside _ _ _ ?_)
    rw [catchUp_mci, catchUpChannel_oru _ (by rw [ho]; rfl), ho]; rfl
  · exact .refl s

theorem carryOutAfterRing_beside (kind : Byte) (body : List Byte) (f : Settings → Live → OrderResult) (s : State) :
    Beside s (carryOutAfterRing kind body f s) := by
  unfold carryOutAfterRing
  split
  · rename_i h
    have ho := holdsDue_oru h
    have hf := finishRing_oru s (by rw [ho]; rfl)
    refine (finishRing_beside s).trans ((catchUp_beside _).trans (answered_beside _ _ _ ?_))
    rw [catchUp_mci, catchUpChannel_oru _ (by rw [hf, ho]; rfl), hf, ho]; rfl
  · exact .refl s

theorem carryOutWithKey_beside (kind : Byte) (body : List Byte) (k : Bool)
    (f : Settings → Live → Bool → OrderResult) (s : State) : Beside s (carryOutWithKey kind body k f s) := by
  unfold carryOutWithKey
  split
  · rename_i h
    have ho := holdsDue_oru h
    refine Beside.trans (t := { s with hwi := { s.hwi with keysw := k } }) (.same (by simp only) (by simp only)) ?_
    refine (catchUp_beside _).trans (answered_beside _ _ _ ?_)
    rw [catchUp_mci, catchUpChannel_oru _ (by simp only; rw [ho]; rfl)]; simp only; rw [ho]; rfl
  · exact .refl s

theorem carryOperation_beside (op : Byte) (body : List Byte) (k : Bool)
    (f : Settings → Live → Bool → OrderResult) (s : State) : Beside s (carryOperation op body k f s) := by
  unfold carryOperation
  split
  · exact carryOutWithKey_beside _ _ _ _ s
  · exact .refl s

theorem takeEvent_beside (due : Bool) (f : Settings → Live → Live) (s : State) : Beside s (takeEvent due f s) := by
  unfold takeEvent
  split
  · exact (catchUp_beside s).trans (.same (by simp only) (by simp only))
  · exact .refl s

theorem carryReset_beside (body : List Byte) (s : State) : Beside s (carryReset body s) := by
  unfold carryReset
  split
  · exact carryOut_beside _ _ _ s
  · split
    · exact .one (by simp only [resetByOrder]; exact .resetOrder _) (by simp only [resetByOrder])
    · exact .refl s

theorem takeCor_beside (p : Port) (s : State) : Beside s (takeCor p s) := by
  unfold takeCor; split
  · exact takeEvent_beside _ _ s
  · exact takeEvent_beside _ _ s
  · exact .refl s

theorem takeEmg_beside (p : Port) (s : State) : Beside s (takeEmg p s) := by
  unfold takeEmg; split
  · exact takeEvent_beside _ _ s
  · exact takeEvent_beside _ _ s
  · exact .refl s

/-! ### Outbound byte places -/

theorem continueOnce_beside (s : State) : Beside s (continueOnce s) := by
  unfold continueOnce
  split
  · split
    · exact .one (by simp only [putLane]; exact .sending _ _) (by simp only [putLane])
    · exact .refl s
  · exact .refl s

theorem continueMessage_beside (s : State) : Beside s (continueMessage s) :=
  (continueOnce_beside s).trans (continueOnce_beside _)

theorem startMessage_beside (msg : List Byte) (s : State) : Beside s (startMessage msg s) := by
  unfold startMessage
  exact Beside.trans (t := { s with mci := { s.mci with out := msg } }) (.one (.sending _ _) (by simp only))
    (continueMessage_beside _)

theorem sendReply_beside (body : List Byte) (s : State) (h : nextReply s.mci = some body) :
    Beside s (sendReply body s) := by
  unfold sendReply
  exact Beside.trans (t := { s with mci := { s.mci with replies := s.mci.replies.tail } })
    (.one (.replySent _ body h) (by simp only)) (startMessage_beside _ _)

theorem sendReport_beside (src : Source) (s : State) : Beside s (sendReport src s) := by
  unfold sendReport
  exact Beside.trans (t := { s with live := reportTaken src s.live.queue.tail s.live })
    (.same (by simp only) (by simp only)) (startMessage_beside _ _)

theorem beforeLane_beside (s : State) : Beside s (beforeLane s) :=
  (catchUp_beside s).trans ((carryReset_beside [] _).trans (catchUp_beside _))

theorem chooseLane_beside (s : State) : Beside s (chooseLane s) := by
  unfold chooseLane
  split
  · rename_i body h; exact sendReply_beside body s h
  · split
    · exact sendReport_beside _ s
    · exact .same (by simp only [putLane]) (by simp only [putLane])

theorem fillLane_beside (s : State) : Beside s (fillLane s) := by
  unfold fillLane
  split
  · simp only
    split
    · exact (beforeLane_beside s).trans (chooseLane_beside _)
    · exact (beforeLane_beside s).trans (continueOnce_beside _)
  · exact .refl s

theorem startReply_beside (s : State) : Beside s (startReply s) := by
  unfold startReply
  simp only
  split
  · split
    · rename_i body h; exact (beforeLane_beside s).trans (sendReply_beside body _ h)
    · exact .refl s
  · exact .refl s

theorem startReport_beside (s : State) : Beside s (startReport s) := by
  unfold startReport
  simp only
  split
  · split
    · exact (beforeLane_beside s).trans (sendReport_beside _ _)
    · exact .refl s
  · exact .refl s

/-- RTR means that the order buffer has room (R160). -/
theorem rtr_room {s : State} (h : s.rtr = true) : s.mci.buffer.length < Config.bufferSize := by
  unfold State.rtr at h
  simp only [Bool.and_eq_true, decide_eq_true_eq] at h
  exact h.1.2

/-- Catching up leaves the bytes still to be parsed. -/
theorem catchUpChannel_inBytes (m : Channel) : (catchUpChannel m).inBytes = m.inBytes := by
  have ho : ∀ k st (m : Channel), (owe k st m).inBytes = m.inBytes := fun k st m => by unfold owe; split <;> rfl
  have hm : ∀ m : Channel, (moveOwed m).inBytes = m.inBytes := fun m => by
    unfold moveOwed; split
    · split <;> rfl
    · rfl
  have hp : (handOnParsed m).inBytes = m.inBytes := by
    unfold handOnParsed handOnMessage handOnAbandoned
    repeat' split
    all_goals first | rfl | simp only [ho]
  have ht : ∀ m : Channel, (takeOrder m).inBytes = m.inBytes := fun m => by
    unfold takeOrder; split
    · split <;> rfl
    · rfl
  unfold catchUpChannel moveAllOwed
  rw [ht, hm, hm, hp]

theorem takeByte_beside (s : State) : Beside s (takeByte s) := by
  unfold takeByte
  split
  · exact .refl s
  · rename_i b rest h
    refine (catchUp_beside s).trans (.one ?_ (by simp only))
    refine ChannelMove.parse (catchUp s).mci (catchUp s).rtr b rest ?_ ?_ ?_
    · rw [catchUp_mci, catchUpChannel_inBytes, h]
    · rw [catchUp_mci, catchUpChannel_parsed]
    · exact fun h => rtr_room h

/-! ### Tasks, frames and commands -/

theorem carryProtection_beside (body : List Byte) (s : State) : Beside s (carryProtection body s) := by
  unfold carryProtection
  simp only
  repeat' split
  all_goals exact carryOutWithKey_beside _ _ _ _ s

theorem carryByKind_beside (kind : Byte) (body : List Byte) (s : State) : Beside s (carryByKind kind body s) := by
  unfold carryByKind
  split
  · exact carryOut_beside _ _ _ s
  · exact carryReset_beside body s
  · exact carryOut_beside _ _ _ s
  · exact carryOut_beside _ _ _ s
  · exact carryOut_beside _ _ _ s
  · exact carryOut_beside _ _ _ s
  · exact carryOutAfterRing_beside _ _ _ s
  · exact carryOutAfterRing_beside _ _ _ s
  · exact carryOut_beside _ _ _ s
  · exact carryOut_beside _ _ _ s
  · exact carryOut_beside _ _ _ s
  · exact carryOut_beside _ _ _ s
  · exact carryOut_beside _ _ _ s
  · exact carryOut_beside _ _ _ s
  · exact carryOut_beside _ _ _ s
  · exact carryOut_beside _ _ _ s
  · exact carryOutAfterRing_beside _ _ _ s
  · exact carryOutAfterRing_beside _ _ _ s
  · exact carryProtection_beside body s
  · exact carryOutWithKey_beside _ _ _ _ s
  · exact carryOut_beside _ _ _ s
  · exact carryOut_beside _ _ _ s
  · exact carryOut_beside _ _ _ s
  · exact carryOut_beside _ _ _ s
  · exact carryOut_beside _ _ _ s

theorem runTask_beside (s : State) (k : FrameTask) : Beside s (runTask s k) := by
  cases k with
  | ring => exact finishRing_beside s
  | byte => exact takeByte_beside s
  | order =>
    simp only [runTask, carryHeld]
    split
    · split
      · exact carryByKind_beside _ _ s
      · exact .refl s
    · exact .refl s
  | lane => exact fillLane_beside s
  | cor p => exact takeCor_beside p s
  | emg p => exact takeEmg_beside p s
  | talkTime p => simp only [runTask, takeTalkTime]; exact takeEvent_beside _ _ s
  | keyUp p => simp only [runTask, takeKeyUp]; exact takeEvent_beside _ _ s
  | hang p => simp only [runTask, takeHang]; exact takeEvent_beside _ _ s
  | keyConfirm p => simp only [runTask, takeKeyConfirm]; exact takeEvent_beside _ _ s
  | alert q => simp only [runTask, takeAlertTimer]; exact takeEvent_beside _ _ s
  | grace => simp only [runTask, takeGrace]; exact takeEvent_beside _ _ s
  | graceFirst => exact .same (by simp only [runTask]) (by simp only [runTask])

theorem settleFrame_beside (s : State) : Beside s (settleFrame s) :=
  (Beside.foldl _ runTask_beside _ s).trans (catchUp_beside _)

theorem openFrame_beside (hdi : Vector Byte 45) (k : Bool) (s : State) : Beside s (openFrame hdi k s) := by
  have h : ∀ (l : Live) (g : Highway),
      Beside s { s with live := l, mci := { s.mci.orderDue with inBytes := inboundLanes hdi }, hwi := g } :=
    fun l g => ⟨.single (.arrival s.mci (inboundLanes hdi)), by simp only⟩
  unfold openFrame
  exact (h _ _).trans (continueMessage_beside _)

theorem arrive_beside (hdi : Vector Byte 45) (k : Bool) (tasks : List FrameTask) (s : State) :
    Beside s (arrive hdi k tasks s) := by
  unfold arrive
  split
  · exact .same (by simp only [arriveInReset]) (by simp only [arriveInReset])
  · exact (catchUp_beside s).trans ((openFrame_beside hdi k _).trans (Beside.foldl _ runTask_beside _ _))

theorem formOutbound_beside (s : State) : Beside s (formOutbound s) := by
  unfold formOutbound
  split
  · exact .same (by simp only) (by simp only)
  · exact .refl s

theorem beginFrame_beside (n : Nat) (s : State) : Beside s (beginFrame n s) :=
  .same (by simp only [beginFrame]) (by simp only [beginFrame])

theorem channel_beside {s : State} {m : Channel} (h : ChannelRun s.mci m) : Beside s { s with mci := m } :=
  ⟨h, by simp only⟩

theorem takeMessage_run (m : Channel) : ChannelRun m (takeMessage m) := by
  have h := ChannelMove.handOn m
  unfold handOnParsed at h
  unfold takeMessage
  split
  · rename_i e; rw [e] at h; exact .single h
  · exact .refl
  · exact .refl

theorem takeAbandoned_run (m : Channel) : ChannelRun m (takeAbandoned m) := by
  have h := ChannelMove.handOn m
  unfold handOnParsed at h
  unfold takeAbandoned
  split
  · rename_i e; rw [e] at h; exact .single h
  · exact .refl
  · exact .refl

theorem takeNextOrder_run (m : Channel) : ChannelRun m (takeNextOrder m) := by
  unfold takeNextOrder
  split
  · unfold moveAllOwed
    exact ((Relation.ReflTransGen.single (.moveOwed m)).tail (.moveOwed _)).tail (.takeOrder _)
  · exact .refl

/-- What a step can do to the channel and the queue: channel moves, and nothing to the queue (every command). -/
theorem exec_beside (i : Instr) (s t : State) (h : exec i s = .next t) : Beside s t := by
  cases i <;> injection h with h <;> subst h
  case powerOnReset b => exact ⟨.single (.fresh _), by simp only [poweredOn]⟩
  case rstReset => exact ⟨.single (.fresh _), by simp only [rstAsserted]⟩
  case rstRelease =>
    split
    · exact .same (by simp only [rstReleased]) (by simp only [rstReleased])
    · exact .refl s
  case frameArrival hdi k tasks =>
    split
    · exact arrive_beside hdi k tasks s
    · exact .refl s
  case earlyHfsPulse n =>
    split
    · exact beginFrame_beside _ s
    · exact .refl s
  case messageComplete => exact channel_beside (takeMessage_run _)
  case messageAbandoned => exact channel_beside (takeAbandoned_run _)
  case orderTaken => exact channel_beside (takeNextOrder_run _)
  case owedRefusal => exact channel_beside (.single (.moveOwed _))
  case replyStart => exact startReply_beside s
  case reportStart k =>
    split
    · exact Beside.trans (t := { s with hwi := { s.hwi with keysw := k } }) (.same (by simp only) (by simp only))
        (startReport_beside _)
    · exact .refl s
  case reset body => exact carryReset_beside body s
  case protect body k => exact carryOperation_beside _ _ _ _ s
  case unprotect body k => exact carryOperation_beside _ _ _ _ s
  case protectAll body k => exact carryOperation_beside _ _ _ _ s
  case unprotectAll body k => exact carryOperation_beside _ _ _ _ s
  case setLock body k => exact carryOperation_beside _ _ _ _ s
  case clearLock body k => exact carryOperation_beside _ _ _ _ s
  case readProtection body k => exact carryOutWithKey_beside _ _ _ _ s
  case setProtection body k =>
    split
    · exact .refl s
    · exact carryOutWithKey_beside _ _ _ _ s
  case unknownOrder kind body =>
    split
    · exact .refl s
    · exact carryOut_beside _ _ _ s
  case definePatch body => exact carryOutAfterRing_beside _ _ _ s
  case setMember body => exact carryOutAfterRing_beside _ _ _ s
  case loadTone body => exact carryOutAfterRing_beside _ _ _ s
  case setCadence body => exact carryOutAfterRing_beside _ _ _ s
  case corSettledRise p => exact takeEvent_beside _ _ s
  case corSettledFall p => exact takeEvent_beside _ _ s
  case emergencyRise p => exact takeEvent_beside _ _ s
  case emgSettledFall p => exact takeEvent_beside _ _ s
  case talkTimeExpiry p => simp only [takeTalkTime]; exact takeEvent_beside _ _ s
  case keyUpExpiry p => simp only [takeKeyUp]; exact takeEvent_beside _ _ s
  case enterHang p => exact .same (by simp only) (by simp only)
  case hangExpiry p => simp only [takeHang]; exact takeEvent_beside _ _ s
  case keyConfirmExpiry p => simp only [takeKeyConfirm]; exact takeEvent_beside _ _ s
  case alertTimerExpiry q => simp only [takeAlertTimer]; exact takeEvent_beside _ _ s
  case graceTimerExpiry => simp only [takeGrace]; exact takeEvent_beside _ _ s
  case cadenceCountEnd => exact .same (by simp only) (by simp only)
  case hfsPulse =>
    split
    · exact (settleFrame_beside s).trans ((formOutbound_beside _).trans (beginFrame_beside _ _))
    · exact (settleFrame_beside s).trans ((formOutbound_beside _).trans (beginFrame_beside _ _))
    · exact .refl s
  case noPulseByPeriod512 =>
    split
    · exact (settleFrame_beside s).trans (.same (by simp only) (by simp only))
    · exact .refl s
  all_goals exact carryOut_beside _ _ _ s

end Sys2Proof.Machine
end

