-- ==== Sys2Proof/Laws/PerInstr.lean ====
section
/-! SUPPORT. A law of every command as syntax: the body that a well-formed order carries fits a message (R157). -/

namespace Sys2Proof.Laws

/-- The message body that a command carries; empty for a command that is no order. -/
def carriedBody : Instr → List Byte
  | .powerOnReset _ => []
  | .rstReset => []
  | .rstRelease => []
  | .frameArrival _ _ _ => []
  | .earlyHfsPulse _ => []
  | .messageComplete => []
  | .messageAbandoned => []
  | .orderTaken => []
  | .owedRefusal => []
  | .replyStart => []
  | .reportStart _ => []
  | .identify body => body
  | .readPort body => body
  | .setPort body => body
  | .clearPort body => body
  | .readPatch body => body
  | .definePatch body => body
  | .setMember body => body
  | .deletePatch body => body
  | .clearBank body => body
  | .switchPlan body => body
  | .abortSwitch body => body
  | .declareMayday body => body
  | .clearMayday body => body
  | .soundAlert body => body
  | .cancelAlert body => body
  | .loadTone body => body
  | .setCadence body => body
  | .protect body _ => body
  | .unprotect body _ => body
  | .protectAll body _ => body
  | .unprotectAll body _ => body
  | .setLock body _ => body
  | .clearLock body _ => body
  | .readProtection body _ => body
  | .setReportMask body => body
  | .readConditions body => body
  | .clearConditions body => body
  | .readRing body => body
  | .reset body => body
  | .corSettledRise _ => []
  | .corSettledFall _ => []
  | .emergencyRise _ => []
  | .emgSettledFall _ => []
  | .talkTimeExpiry _ => []
  | .keyUpExpiry _ => []
  | .enterHang _ => []
  | .hangExpiry _ => []
  | .keyConfirmExpiry _ => []
  | .alertTimerExpiry _ => []
  | .graceTimerExpiry => []
  | .cadenceCountEnd => []
  | .unknownOrder _ body => body
  | .setProtection body _ => body
  | .hfsPulse => []
  | .noPulseByPeriod512 => []

/-- A body that spells an operation has four bytes, so it fits a message (R135, R157). -/
theorem isOperation_fits {op : Byte} {body : List Byte} (h : isOperation op body = true) :
    body.length ≤ Config.maxBody := by
  unfold isOperation at h
  simp only [Bool.and_eq_true, beq_iff_eq] at h
  rw [h.1]; decide

/-- A well-formed command carries at most 60 body bytes (R157). -/
def OrderBody.Statement (i : Instr) : Prop := i.wf = true → (carriedBody i).length ≤ Config.maxBody

theorem OrderBody.powerOnReset (rstHeld : Bool) : OrderBody.Statement (.powerOnReset rstHeld) :=
  fun _ => Nat.zero_le _

theorem OrderBody.rstReset : OrderBody.Statement (.rstReset) := fun _ => Nat.zero_le _

theorem OrderBody.rstRelease : OrderBody.Statement (.rstRelease) := fun _ => Nat.zero_le _

theorem OrderBody.frameArrival (hdi : Vector Byte 45) (keysw : Bool) (tasks : List FrameTask) :
    OrderBody.Statement (.frameArrival hdi keysw tasks) :=
  fun _ => Nat.zero_le _

theorem OrderBody.earlyHfsPulse (period : Nat) : OrderBody.Statement (.earlyHfsPulse period) := fun _ => Nat.zero_le _

theorem OrderBody.messageComplete : OrderBody.Statement (.messageComplete) := fun _ => Nat.zero_le _

theorem OrderBody.messageAbandoned : OrderBody.Statement (.messageAbandoned) := fun _ => Nat.zero_le _

theorem OrderBody.orderTaken : OrderBody.Statement (.orderTaken) := fun _ => Nat.zero_le _

theorem OrderBody.owedRefusal : OrderBody.Statement (.owedRefusal) := fun _ => Nat.zero_le _

theorem OrderBody.replyStart : OrderBody.Statement (.replyStart) := fun _ => Nat.zero_le _

theorem OrderBody.reportStart (keysw : Bool) : OrderBody.Statement (.reportStart keysw) := fun _ => Nat.zero_le _

theorem OrderBody.identify (body : List Byte) : OrderBody.Statement (.identify body) := fun h => of_decide_eq_true h

theorem OrderBody.readPort (body : List Byte) : OrderBody.Statement (.readPort body) := fun h => of_decide_eq_true h

theorem OrderBody.setPort (body : List Byte) : OrderBody.Statement (.setPort body) := fun h => of_decide_eq_true h

theorem OrderBody.clearPort (body : List Byte) : OrderBody.Statement (.clearPort body) := fun h => of_decide_eq_true h

theorem OrderBody.readPatch (body : List Byte) : OrderBody.Statement (.readPatch body) := fun h => of_decide_eq_true h

theorem OrderBody.definePatch (body : List Byte) : OrderBody.Statement (.definePatch body) :=
  fun h => of_decide_eq_true h

theorem OrderBody.setMember (body : List Byte) : OrderBody.Statement (.setMember body) := fun h => of_decide_eq_true h

theorem OrderBody.deletePatch (body : List Byte) : OrderBody.Statement (.deletePatch body) :=
  fun h => of_decide_eq_true h

theorem OrderBody.clearBank (body : List Byte) : OrderBody.Statement (.clearBank body) := fun h => of_decide_eq_true h

theorem OrderBody.switchPlan (body : List Byte) : OrderBody.Statement (.switchPlan body) :=
  fun h => of_decide_eq_true h

theorem OrderBody.abortSwitch (body : List Byte) : OrderBody.Statement (.abortSwitch body) :=
  fun h => of_decide_eq_true h

theorem OrderBody.declareMayday (body : List Byte) : OrderBody.Statement (.declareMayday body) :=
  fun h => of_decide_eq_true h

theorem OrderBody.clearMayday (body : List Byte) : OrderBody.Statement (.clearMayday body) :=
  fun h => of_decide_eq_true h

theorem OrderBody.soundAlert (body : List Byte) : OrderBody.Statement (.soundAlert body) :=
  fun h => of_decide_eq_true h

theorem OrderBody.cancelAlert (body : List Byte) : OrderBody.Statement (.cancelAlert body) :=
  fun h => of_decide_eq_true h

theorem OrderBody.loadTone (body : List Byte) : OrderBody.Statement (.loadTone body) := fun h => of_decide_eq_true h

theorem OrderBody.setCadence (body : List Byte) : OrderBody.Statement (.setCadence body) :=
  fun h => of_decide_eq_true h

theorem OrderBody.protect (body : List Byte) (keysw : Bool) : OrderBody.Statement (.protect body keysw) :=
  fun h => isOperation_fits h

theorem OrderBody.unprotect (body : List Byte) (keysw : Bool) : OrderBody.Statement (.unprotect body keysw) :=
  fun h => isOperation_fits h

theorem OrderBody.protectAll (body : List Byte) (keysw : Bool) : OrderBody.Statement (.protectAll body keysw) :=
  fun h => isOperation_fits h

theorem OrderBody.unprotectAll (body : List Byte) (keysw : Bool) : OrderBody.Statement (.unprotectAll body keysw) :=
  fun h => isOperation_fits h

theorem OrderBody.setLock (body : List Byte) (keysw : Bool) : OrderBody.Statement (.setLock body keysw) :=
  fun h => isOperation_fits h

theorem OrderBody.clearLock (body : List Byte) (keysw : Bool) : OrderBody.Statement (.clearLock body keysw) :=
  fun h => isOperation_fits h

theorem OrderBody.readProtection (body : List Byte) (keysw : Bool) :
    OrderBody.Statement (.readProtection body keysw) :=
  fun h => of_decide_eq_true h

theorem OrderBody.setReportMask (body : List Byte) : OrderBody.Statement (.setReportMask body) :=
  fun h => of_decide_eq_true h

theorem OrderBody.readConditions (body : List Byte) : OrderBody.Statement (.readConditions body) :=
  fun h => of_decide_eq_true h

theorem OrderBody.clearConditions (body : List Byte) : OrderBody.Statement (.clearConditions body) :=
  fun h => of_decide_eq_true h

theorem OrderBody.readRing (body : List Byte) : OrderBody.Statement (.readRing body) := fun h => of_decide_eq_true h

theorem OrderBody.reset (body : List Byte) : OrderBody.Statement (.reset body) := fun h => of_decide_eq_true h

theorem OrderBody.corSettledRise (p : Port) : OrderBody.Statement (.corSettledRise p) := fun _ => Nat.zero_le _

theorem OrderBody.corSettledFall (p : Port) : OrderBody.Statement (.corSettledFall p) := fun _ => Nat.zero_le _

theorem OrderBody.emergencyRise (p : Port) : OrderBody.Statement (.emergencyRise p) := fun _ => Nat.zero_le _

theorem OrderBody.emgSettledFall (p : Port) : OrderBody.Statement (.emgSettledFall p) := fun _ => Nat.zero_le _

theorem OrderBody.talkTimeExpiry (p : Port) : OrderBody.Statement (.talkTimeExpiry p) := fun _ => Nat.zero_le _

theorem OrderBody.keyUpExpiry (p : Port) : OrderBody.Statement (.keyUpExpiry p) := fun _ => Nat.zero_le _

theorem OrderBody.enterHang (p : Port) : OrderBody.Statement (.enterHang p) := fun _ => Nat.zero_le _

theorem OrderBody.hangExpiry (p : Port) : OrderBody.Statement (.hangExpiry p) := fun _ => Nat.zero_le _

theorem OrderBody.keyConfirmExpiry (p : Port) : OrderBody.Statement (.keyConfirmExpiry p) := fun _ => Nat.zero_le _

theorem OrderBody.alertTimerExpiry (q : Patch) : OrderBody.Statement (.alertTimerExpiry q) := fun _ => Nat.zero_le _

theorem OrderBody.graceTimerExpiry : OrderBody.Statement (.graceTimerExpiry) := fun _ => Nat.zero_le _

theorem OrderBody.cadenceCountEnd : OrderBody.Statement (.cadenceCountEnd) := fun _ => Nat.zero_le _

theorem OrderBody.unknownOrder (kind : Byte) (body : List Byte) : OrderBody.Statement (.unknownOrder kind body) :=
  fun h => of_decide_eq_true (Bool.and_eq_true_iff.1 h).2

theorem OrderBody.setProtection (body : List Byte) (keysw : Bool) : OrderBody.Statement (.setProtection body keysw) :=
  fun h => of_decide_eq_true (Bool.and_eq_true_iff.1 h).1

theorem OrderBody.hfsPulse : OrderBody.Statement (.hfsPulse) := fun _ => Nat.zero_le _

theorem OrderBody.noPulseByPeriod512 : OrderBody.Statement (.noPulseByPeriod512) := fun _ => Nat.zero_le _

end Sys2Proof.Laws
end

