-- ==== Sys2Proof/Tests/Slice0.lean ====
section
/-! SUPPORT. Small tests: ill-formed commands are refused by the well-formedness check; one step of each command on a
small state; and, for every statement of the certificates that has hypotheses, a state and operands that meet them. -/

namespace Sys2Proof.Tests

open Sys2Proof.Machine Sys2Proof.Safety Sys2Proof.Claims

set_option maxRecDepth 100000

/-! ### Helpers -/

/-- The next state of an outcome, the reset state where there is none. -/
def after (i : Instr) (s : State) : State :=
  match exec i s with
  | .next t => t
  | .fault _ => State.reset
  | .refused _ => State.reset

/-- The ORU holds an order that is due, with its reply place reserved. -/
def holding (kind : Byte) (body : List Byte) (s : State) : State :=
  { s with mci := { s.mci with oru := some { kind := kind, body := body, due := true }, replies := [.reserved] } }

/-- A member record with unity gains. -/
def member (p : Port) (listen talk : Bool) (rank : Fin 16) : MemberRec :=
  { port := p, listen := listen, talk := talk, rank := rank, inGain := 64, outGain := 64, keyUp := none }

/-- A valid record with these members in its first lanes. -/
def patchOf (mode : Mode) (ms : List MemberRec) : PatchRec :=
  { valid := true, mode := mode, lanes := Vector.ofFn (fun n => ms[n.val]?) }

/-- A record written in bank 0, which is ACTIVE at reset. -/
def withPatch (q : Patch) (r : PatchRec) (s : State) : State := { s with cfg := s.cfg.setRecord 0 q r }

/-- Another live state. -/
def withLive (f : Live → Live) (s : State) : State := { s with live := f s.live }

/-- A settlement of a port's COR waits to be taken. -/
def corDue (v : Bool) (p : Port) (s : State) : State :=
  withLive (fun l => l.setRx p { look l.rx p with cor := { (look l.rx p).cor with due := some v } }) s

/-- A settlement of a port's EMG waits to be taken. -/
def emgDue (v : Bool) (p : Port) (s : State) : State :=
  withLive (fun l => l.setRx p { look l.rx p with emg := { (look l.rx p).emg with due := some v } }) s

/-- A port is in a receive state. -/
def receiving (x : RxState) (p : Port) (s : State) : State :=
  withLive (fun l => l.setRx p { look l.rx p with rx := x }) s

/-- A port's transmit machine as given. -/
def sending (t : TxPort) (p : Port) (s : State) : State := withLive (fun l => l.setTx p t) s

/-- A transmit machine that reads ring 0 from its head. -/
def reader (st : TxState) : TxPort :=
  { TxPort.dormant with state := st, reader := some { ring := 0, cursor := 0, endMark := none } }

/-- A patch has this floor, its ports being claimants. -/
def floorOf (q : Patch) (ps : List Port) (s : State) : State :=
  withLive (fun l => (l.setCtx q { ctxOf l q with floor := ps }).setClaimants q ps) s

/-- A patch is under alert, its context saved. -/
def alerted (q : Patch) (s : State) : State :=
  withLive (fun l => (l.setOvr q { look l.ovr q with save2 := some (ctxOf l q), timer := .running 0 }).setCtx q
    { ctxOf l q with floor := [], source := .alert }) s

/-- A patch has a mayday of a port, which holds the guest resource. -/
def maydayOn (q : Patch) (p : Port) (s : State) : State :=
  withLive (fun l =>
    { ((l.setOvr q { look l.ovr q with save1 := some (ctxOf l q), mayday := some p }).setCtx q
        { ctxOf l q with mode := .single, restriction := some p }).setLamp p true with guestHolder := some q }) s

/-- A switch that involves P0 is pending, with a grace timer. -/
def switching (grace : Nat) (s : State) : State :=
  withLive (fun l =>
    { l.setFreezing 0 true with
      switch := { l.switch with state := .pending, involved := [0], grace := some grace } }) s

/-- Port flags set for one port. -/
def protecting (p : Port) (s : State) : State := { s with cfg := { s.cfg with flags := put s.cfg.flags p true } }

/-- Timeslots by a function. -/
def slots (f : Nat → Byte) : Vector Byte 45 := Vector.ofFn (fun i => f i.val)

/-- A frame is in progress. -/
def running (s : State) : State := { s with hwi := { s.hwi with phase := .running } }

/-- A frame has arrived. -/
def arrived (s : State) : State :=
  { s with hwi := { s.hwi with phase := .arrived, period := 360, ringDue := true, formDue := true } }

/-- The record of P0: RP2 and RP9 with rank 6, C0 with rank 0. -/
def record0 : PatchRec := patchOf .single [member 2 true true 6, member 9 true true 6, member 16 true true 0]

/-- The record of P1: RP3 and RP4 mix. -/
def record1 : PatchRec := patchOf .mix [member 3 true true 1, member 4 true true 2]

/-- After reset, with P0 and P1 defined. -/
def planned : State := withPatch 1 record1 (withPatch 0 record0 State.reset)

/-- RP2 holds the floor of P0. -/
def talking : State := floorOf 0 [2] (receiving .active 2 planned)

/-- RP2 holds the floor of P0, which RP9 reads ON_AIR; a settled fall of RP2's COR waits to be taken. -/
def listening : State := corDue false 2 (sending (reader .onAir) 9 talking)

/-- These ports talk in P1, which mixes. -/
def mixing (ps : List Port) : State :=
  withLive (fun l => (l.setCtx 1 { mode := .mix, floor := ps, restriction := none, source := .receive }))
    (floorOf 1 ps (ps.foldl (fun s p => receiving .active p s) planned))

/-- Every DORMANT port that is entitled to the ring of P0 reads it. -/
def sharing (s : State) : State := sending (reader .onAir) 16 s

/-! ### Well-formedness -/

theorem test_wf_early_pulse : (Instr.earlyHfsPulse 360).wf = false := by decide
theorem test_wf_emergency_rise : (Instr.emergencyRise 16).wf = false := by decide
theorem test_wf_emg_fall : (Instr.emgSettledFall 17).wf = false := by decide
theorem test_wf_unknown_zero : (Instr.unknownOrder 0 []).wf = false := by decide
theorem test_wf_unknown_known : (Instr.unknownOrder 0x70 []).wf = false := by decide
theorem test_wf_unknown_long : (Instr.unknownOrder 0x03 (List.replicate 61 0)).wf = false := by decide
theorem test_wf_protect : (Instr.protect [2, 0, 0, 0] false).wf = false ∧ (Instr.protect [1, 0, 0] false).wf = false := by
  decide
theorem test_wf_unprotect : (Instr.unprotect [1, 0, 0, 0] false).wf = false := by decide
theorem test_wf_protect_all : (Instr.protectAll [4, 0, 0, 0] false).wf = false := by decide
theorem test_wf_unprotect_all : (Instr.unprotectAll [3, 0, 0, 0] false).wf = false := by decide
theorem test_wf_set_lock : (Instr.setLock [6, 0, 0, 0] false).wf = false := by decide
theorem test_wf_clear_lock : (Instr.clearLock [5, 0, 0, 0, 0] false).wf = false := by decide
theorem test_wf_set_protection : (Instr.setProtection [1, 0, 0, 0] false).wf = false ∧
    (Instr.setProtection (List.replicate 61 0) false).wf = false := by decide

/-- Every order whose command carries any body refuses one of 61 bytes. -/
theorem test_wf_long_bodies :
    ([Instr.identify, .readPort, .setPort, .clearPort, .readPatch, .definePatch, .setMember, .deletePatch, .clearBank,
      .switchPlan, .abortSwitch, .declareMayday, .clearMayday, .soundAlert, .cancelAlert, .loadTone, .setCadence,
      .setReportMask, .readConditions, .clearConditions, .readRing, .reset,
      fun body => .readProtection body false].all (fun i =>
        !(i (List.replicate 61 0)).wf && (i (List.replicate 60 0)).wf)) = true := by decide

theorem test_wf_good : (Instr.earlyHfsPulse 359).wf = true ∧ (Instr.emergencyRise 15).wf = true ∧
    (Instr.unknownOrder 0x03 []).wf = true ∧ (Instr.protect [1, 0, 0, 4] true).wf = true ∧
    (Instr.setProtection [7, 0, 0, 0] true).wf = true := by decide

/-! ### Resets and frames -/

theorem test_power_on_held : (after (.powerOnReset true) planned).hwi.inReset = true ∧
    (after (.powerOnReset true) planned).rtr = false := by decide
theorem test_power_on : (after (.powerOnReset false) planned).cfg.banks = clearedBanks ∧
    (after (.powerOnReset false) planned).live.queue = [26] := by decide
theorem test_rst_reset : look (after .rstReset (protecting 3 planned)).cfg.flags 3 = true ∧
    (after .rstReset planned).cfg.banks = clearedBanks := by decide
theorem test_rst_release : (after .rstRelease (after .rstReset planned)).live.queue = [26] := by decide
theorem test_reset_order : (after (.reset []) (holding 0x02 [] talking)).mci.replies = [.ready [0x02, 0]] ∧
    (ctxOf (after (.reset []) (holding 0x02 [] talking)).live 0).floor = [] := by decide
theorem test_reset_order_keeps_plan :
    bankRecord (after (.reset []) (holding 0x02 [] talking)).cfg 0 0 = record0 := by decide

/-- The frame after a RESET order shows RTR set and carries the rest of a message in flight, though the bytes of an order
came in the frame at whose arrival it was carried out (R175; log entry 34). -/
theorem test_reset_order_shows_rtr :
    (let s := holding 0x02 [] (arrived talking);
      let t := after .hfsPulse { s with mci := { s.mci with out := [7, 8, 9], inBytes := [1, 0] } };
      t.hdo 38 = some 4 ∧ t.hdo 42 = some 7 ∧ t.hdo 43 = some 8 ∧ t.mci.buffer = []) := by decide

/-- A kind and a length above 60 in the first frame after power-on reset: the MALFORMED reply is begun before the RESTART
report (R159, R162, R167; log entry 36). -/
theorem test_malformed_before_restart :
    (let t := after .hfsPulse (after (.frameArrival (slots (fun k => if k = 43 then 5 else if k = 44 then 61 else 0)) false
        []) (after .hfsPulse State.reset));
      t.hdo 42 = some 0x80 ∧ t.mci.out = [5, statusByte .malformed] ∧ t.live.queue = [26]) := by decide

/-- A frame carries IDENTIFY with no body: kind 01h, length 0 in the two management timeslots. -/
theorem test_frame_message :
    (after (.frameArrival (slots (fun k => if k = 43 then 1 else 0)) false [.byte, .byte]) (running State.reset)).mci.parsed
      = some (.complete 1 [] true) := by decide
theorem test_frame_sample :
    look (after (.frameArrival (slots (fun k => if k = 4 then 0x12 else if k = 5 then 0x34 else 0)) false [])
      (running State.reset)).hwi.received 2 = 0x1234 := by decide
theorem test_early_pulse : (after (.earlyHfsPulse 100) (running State.reset)).hwi.driven = 12 := by decide
theorem test_pulse_begins : (after .hfsPulse State.reset).hwi.phase = .running := by decide
theorem test_pulse_reports_restart : (after .hfsPulse (arrived State.reset)).hwi.out.lane0 = 0x81 := by decide
theorem test_no_pulse : (after .noPulseByPeriod512 (arrived State.reset)).hwi.phase = .waiting := by decide

/-! ### The management channel -/

/-- A message waits to be handed on. -/
def parsedAs (m : Parsed) (s : State) : State := { s with mci := { s.mci with parsed := some m } }

theorem test_message_complete :
    (after .messageComplete (parsedAs (.complete 0x10 [3] true) State.reset)).mci.buffer =
      [{ kind := 0x10, body := [3] }] := by decide
theorem test_message_busy :
    (after .messageComplete (parsedAs (.complete 0x10 [3] false) State.reset)).mci.owed =
      [{ kind := 0x10, status := .busy }] := by decide
theorem test_message_abandoned :
    (after .messageAbandoned (parsedAs (.abandoned 0x21) State.reset)).mci.owed =
      [{ kind := 0x21, status := .malformed }] := by decide
theorem test_order_taken :
    (after .orderTaken { State.reset with mci := { Channel.fresh with buffer := [{ kind := 1, body := [] }] } }).mci.oru =
      some { kind := 1, body := [], due := false } := by decide
theorem test_owed_refusal :
    (after .owedRefusal { State.reset with mci := { Channel.fresh with owed := [{ kind := 9, status := .busy }] } }
      ).mci.replies = [.ready [9, statusByte .busy]] := by decide
theorem test_reply_start :
    (after .replyStart (arrived { State.reset with mci := { Channel.fresh with replies := [.ready [1, 0, 7]] } })
      ).hwi.lanes = [0x80, 3] := by decide
theorem test_reply_continues :
    (after .replyStart (arrived { State.reset with mci := { Channel.fresh with replies := [.ready [1, 0, 7]] } })
      ).mci.out = [1, 0, 7] := by decide
theorem test_report_start : (after (.reportStart true) (arrived State.reset)).hwi.lanes = [0x81, 13] ∧
    (after (.reportStart true) (arrived State.reset)).mci.out =
      [26, 0, 1, 0, 0, 0, 0, 0, 0, 0, 0, 0, 1] := by decide

/-! ### Orders -/

/-- The reply that an order leaves. -/
def replyTo (i : Instr) (kind : Byte) (body : List Byte) (s : State) : List Place :=
  (after i (holding kind body s)).mci.replies

theorem test_identify : replyTo (.identify []) 1 [] State.reset = [.ready [1, 0, 0x09, 0x71, 18, 3]] := by decide
theorem test_read_port :
    replyTo (.readPort [2]) 0x10 [2] listening =
      [.ready [0x10, 0, 2, 0, 0, 1, 0, 250, 1, 0xF4, 0, 120, 0, 0, 5, 1, 0, 0, 0]] := by decide
theorem test_set_port_clamps :
    replyTo (.setPort [2, 1, 0, 0xFF, 0xFF, 0, 0, 0, 0, 0, 1, 99]) 0x11 [2, 1, 0, 0xFF, 0xFF, 0, 0, 0, 0, 0, 1, 99]
      State.reset = [.ready [0x11, 2, 1, 0, 3, 0xE8, 0, 0, 0, 0, 0, 10, 50]] := by decide
theorem test_clear_port :
    (look (after (.clearPort [9]) (holding 0x12 [9] (sending { TxPort.dormant with state := .fault } 9 talking))).live.tx
      9).state = .keying := by decide
/-- RP9, HALF, keys from FAULT: its lockout is lifted and its debounce by R27 goes on, the fresh one waiting (R39). -/
theorem test_clear_port_waits :
    (let cor : Debounce := { level := true, count := 2, fresh := false, run := false, due := none };
      let s := withLive (fun l => l.setRx 9 { look l.rx 9 with rx := .lockout, cor := cor })
        (sending { TxPort.dormant with state := .fault } 9 talking);
      let t := (after (.clearPort [9]) (holding 0x12 [9] s)).live;
      (look t.tx 9).state = .keying ∧ (look t.rx 9).rx = .quiet ∧ (look t.rx 9).cor = cor) := by decide
theorem test_read_patch :
    replyTo (.readPatch [1, 0]) 0x20 [1, 0] planned = [.ready ([0x20, 0, 1, 0, 0] ++ List.replicate 48 0)] := by decide
theorem test_define_patch :
    bankRecord (after (.definePatch ([1, 4] ++ recordBytes record0)) (holding 0x21 ([1, 4] ++ recordBytes record0)
      planned)).cfg 1 4 = record0 := by decide
theorem test_define_patch_conflict :
    replyTo (.definePatch ([0, 4] ++ recordBytes record0)) 0x21 ([0, 4] ++ recordBytes record0) planned =
      [.ready [0x21, 0x19]] := by decide
theorem test_set_member :
    (look (after (.setMember [0, 0, 3, 0xA5, 3, 64, 64, 0, 5]) (holding 0x22 [0, 0, 3, 0xA5, 3, 64, 64, 0, 5] talking)
      ).live.tx 5).keyUp = some 40 := by decide
theorem test_set_member_removes :
    (ctxOf (after (.setMember [0, 0, 0, 0, 0, 0, 0, 0, 0]) (holding 0x22 [0, 0, 0, 0, 0, 0, 0, 0, 0] talking)).live 0
      ).floor = [] := by decide
theorem test_delete_patch :
    bankRecord (after (.deletePatch [0, 0]) (holding 0x23 [0, 0] planned)).cfg 0 0 = PatchRec.cleared ∧
      replyTo (.deletePatch [0, 0]) 0x23 [0, 0] talking = [.ready [0x23, 0x18]] := by decide
theorem test_clear_bank :
    (after (.clearBank [0]) (holding 0x24 [0] planned)).cfg.banks = clearedBanks := by decide
theorem test_switch_plan_done :
    replyTo (.switchPlan [5]) 0x30 [5] planned = [.ready [0x30, 0, 3, 0]] := by decide
theorem test_switch_plan_pending :
    replyTo (.switchPlan [40]) 0x30 [40] talking = [.ready [0x30, 2, 3, 1]] := by decide
theorem test_abort_switch :
    (after (.abortSwitch []) (holding 0x31 [] (switching 80 talking))).live.switch.last = .aborted .order := by decide
theorem test_declare_mayday :
    (after (.declareMayday [9]) (holding 0x40 [9] talking)).live.guestHolder = some 0 := by decide
theorem test_clear_mayday :
    look (after (.clearMayday [0]) (holding 0x41 [0] (maydayOn 0 2 talking))).live.lamps 2 = false := by decide
theorem test_sound_alert :
    (ctxOf (after (.soundAlert [1, 0, 10]) (holding 0x42 [1, 0, 10] talking)).live 0).source = .alert := by decide
theorem test_cancel_alert :
    (ctxOf (after (.cancelAlert [1]) (holding 0x43 [1] (alerted 0 talking))).live 0).floor = [2] := by decide
theorem test_load_tone :
    (after (.loadTone [3, 0xFF, 0, 7, 0, 8]) (holding 0x48 [3, 0xFF, 0, 7, 0, 8] State.reset)).cfg.tone =
      [(0, 8), (1023, 7)] := by decide
theorem test_set_cadence :
    replyTo (.setCadence [0, 40, 0, 250, 0x13, 0x89, 64, 32]) 0x49 [0, 40, 0, 250, 0x13, 0x89, 64, 32] State.reset =
      [.ready [0x49, 2, 0, 40, 0, 250, 0x13, 0x88, 64, 32]] := by decide
theorem test_protect :
    replyTo (.protect [1, 4, 0, 2] false) 0x50 [1, 4, 0, 2] State.reset = [.ready [0x50, 0, 4, 0, 2, 0, 0]] := by decide
theorem test_unprotect :
    replyTo (.unprotect [2, 8, 0, 0] true) 0x50 [2, 8, 0, 0] (protecting 3 State.reset) =
      [.ready [0x50, 0, 0, 0, 0, 0, 1]] := by decide
theorem test_protect_all :
    replyTo (.protectAll [3, 0, 0, 0] false) 0x50 [3, 0, 0, 0] State.reset =
      [.ready [0x50, 0, 0xFF, 0xFF, 3, 0, 0]] := by decide
theorem test_unprotect_all :
    replyTo (.unprotectAll [4, 0, 0, 0] false) 0x50 [4, 0, 0, 0] (protecting 3 State.reset) =
      [.ready [0x50, 0, 0, 0, 0, 0, 0]] := by decide
theorem test_set_lock :
    replyTo (.setLock [5, 0, 0, 0] false) 0x50 [5, 0, 0, 0] State.reset = [.ready [0x50, 0, 0, 0, 0, 1, 0]] := by decide
theorem test_clear_lock :
    replyTo (.clearLock [6, 0, 0, 0] true) 0x50 [6, 0, 0, 0] { State.reset with cfg := { State.reset.cfg with plk := true } }
      = [.ready [0x50, 0x14]] := by decide
theorem test_set_protection :
    replyTo (.setProtection [7, 0, 0, 0] false) 0x50 [7, 0, 0, 0] State.reset = [.ready [0x50, 0x12]] := by decide
theorem test_read_protection :
    replyTo (.readProtection [] true) 0x51 [] (protecting 17 State.reset) = [.ready [0x51, 0, 0, 0, 2, 0, 1]] := by decide
theorem test_set_report_mask :
    replyTo (.setReportMask [18, 0xFF]) 0x60 [18, 0xFF] State.reset = [.ready [0x60, 0, 0x30]] := by decide
theorem test_read_conditions :
    replyTo (.readConditions [26]) 0x61 [26] State.reset = [.ready [0x61, 0, 26, 1, 1, 0, 1]] := by decide
theorem test_clear_conditions : (after (.clearConditions [26]) (holding 0x62 [26] State.reset)).live.queue = [] := by
  decide
theorem test_read_ring :
    replyTo (.readRing [0]) 0x70 [0] listening = [.ready [0x70, 0, 0, 1, 0, 0, 1, 9, 2, 0, 0]] := by decide
theorem test_unknown_order : replyTo (.unknownOrder 3 [9]) 3 [9] State.reset = [.ready [3, 0x11]] := by decide

/-! ### The part's own events -/

theorem test_cor_rise : (ctxOf (after (.corSettledRise 2) (corDue true 2 planned)).live 0).floor = [2] := by decide
theorem test_cor_rise_keys_the_listener :
    (look (after (.corSettledRise 2) (corDue true 2 planned)).live.tx 9).state = .keying := by decide
theorem test_cor_fall : (ctxOf (after (.corSettledFall 2) (corDue false 2 talking)).live 0).floor = [] := by decide
theorem test_emergency_rise :
    (ctxOf (after (.emergencyRise 9) (emgDue true 9 talking)).live 0).restriction = some 9 := by decide
theorem test_emg_fall : (look (after (.emgSettledFall 9) (emgDue false 9 talking)).live.rx 9).emg.fresh = false := by decide
theorem test_talk_time :
    (look (after (.talkTimeExpiry 2) (withLive (fun l => l.setRx 2 { look l.rx 2 with talk := some 0 }) talking)).live.rx
      2).rx = .lockout := by decide
theorem test_key_up :
    (look (after (.keyUpExpiry 9) (sending { reader .keying with keyUp := some 0 } 9 talking)).live.tx 9).state = .onAir := by
  decide
theorem test_enter_hang :
    (look (after (.enterHang 9) (sending { reader .onAir with hangDue := true } 9 planned)).live.tx 9).hang = some 4000 := by
  decide
theorem test_hang_expiry :
    (look (after (.hangExpiry 9) (sending { reader .hang with hang := some 0 } 9 planned)).live.tx 9).state = .dormant := by
  decide
theorem test_key_confirm :
    (look (after (.keyConfirmExpiry 9) (sending { reader .onAir with confirm := some 0 } 9 talking)).live.tx 9).state =
      .fault := by decide
theorem test_alert_timer : (ctxOf (after (.alertTimerExpiry 0) (alerted 0 talking)).live 0).source = .receive := by decide
/-- RP2's COR falls in the frame in which the grace timer runs out: DONE or FORCED, as the sender orders them (R123). -/
theorem test_grace_and_idle_test :
    (let s := switching 0 (corDue false 2 talking);
      let first := runTask s .graceFirst;
      (after (.corSettledFall 2) s).live.switch.last = .done ∧
        (after (.corSettledFall 2) first).live.switch.last = .forced ∧
        (after (.corSettledFall 2) first).live.active = 1 ∧
        (after .graceTimerExpiry (after (.corSettledFall 2) first)).live.active = 1) := by decide
theorem test_grace : (after .graceTimerExpiry (switching 0 talking)).live.active = 1 := by decide
theorem test_cadence_end :
    (after .cadenceCountEnd (withLive (fun l => { l with gen := { phase := .off, count := 0, pointer := 7 } })
      State.reset)).live.gen = { phase := .on, count := 0, pointer := 0 } := by decide

/-! ### The queue -/

theorem test_step_front :
    (match step { State.reset with pending := [.hfsPulse, .cadenceCountEnd] } with
      | .next t => decide (t.pending = [.cadenceCountEnd] ∧ t.hwi.phase = .running)
      | .fault _ => false
      | .refused _ => false) = true := by decide
theorem test_step_idle :
    (match step State.reset with
      | .next t => decide (t = State.reset)
      | .fault _ => false
      | .refused _ => false) = true := by decide

/-! ### Readings of the rules -/

/-- The record of a MIX patch of five talkers. -/
def record5 (last : MemberRec) : PatchRec :=
  patchOf .mix [member 5 true true 1, member 6 true true 1, member 7 true true 1, member 8 true true 1, last]

/-- RP5 to RP8 talk in P2, and RP10 waits there. -/
def crowded (last : MemberRec) : State :=
  withLive (fun l => (l.setCtx 2 { mode := .mix, floor := [5, 6, 7, 8], restriction := none, source := .receive }
    ).setClaimants 2 [5, 6, 7, 8, 10])
    ([5, 6, 7, 8, 10].foldl (fun s p => receiving .active p s) (withPatch 2 (record5 last) State.reset))

/-- A rank changed together with LISTEN makes an arbitration, in which the waiting RP10 displaces RP8; a rank changed
alone makes none (R18, R58). -/
theorem test_rank_with_a_right :
    (let new := member 10 false true 0;
      (ctxOf (liveEdit (crowded new).cfg 2 (some (member 10 true true 2)) (some new) (crowded new).live) 2).floor =
        [5, 6, 7, 10]) ∧
    (let new := member 10 true true 0;
      (ctxOf (liveEdit (crowded new).cfg 2 (some (member 10 true true 2)) (some new) (crowded new).live) 2).floor =
        [5, 6, 7, 8]) := by decide

/-- A saved set whose lowest talker is not eligible gives way to the lowest eligible claimant, saved or not (R105). -/
theorem test_restored_mayday_takes_the_lowest :
    (let l := (withLive (fun l => l.setRx 9 { look l.rx 9 with emg := { (look l.rx 9).emg with level := true } })
        (floorOf 0 [2, 9, 16] planned)).live;
      restoredMaydayFloor planned.cfg l 0 5 [2, 9] = [16] ∧ maydayFloor planned.cfg l 0 5 [2, 9] = [9]) := by decide

/-- Under MAYDAY a holder of rank 6 whose EMG level has fallen keeps the floor against a claim of rank 0, and gives it up
to that claim while the level is HIGH (R54). -/
theorem test_fallen_emg_holder_keeps :
    (let l := (withLive (fun l => (l.setCtx 0 { ctxOf l 0 with restriction := some 2 }).setClaimants 0 [9, 16])
        (floorOf 0 [9] (receiving .active 9 planned))).live;
      claimedFloor planned.cfg l 0 [9] 16 = [9] ∧
      claimedFloor planned.cfg (l.setRx 9 { look l.rx 9 with emg := { (look l.rx 9).emg with level := true } }) 0 [9] 16 =
        [16]) := by decide

/-- A port in FAULT that stood in the old record alone goes to DORMANT, wherever else it is a member (R10; log
entry 37). -/
theorem test_removed_fault :
    (let s := sending { TxPort.dormant with state := .fault } 9 planned;
      (look (freeRemoved s.cfg record0 PatchRec.cleared s.live 9).tx 9).state = .dormant) := by decide

/-- Four talkers at gain 32 near full scale clip (R81 to R83; log entry 31). -/
theorem test_four_at_gain_32 : stage [(32, 32767), (32, 32767), (32, 32767), (32, 32767)] = (32767, true) := by decide

/-! ### Laws of a concrete state, by checks -/

/-- The member records of two lanes name different ports, or the lanes are the same. -/
def lanesApart (r : PatchRec) (n k : Lane) : Bool :=
  match look r.lanes n, look r.lanes k with
  | some a, some b => a.port ≠ b.port || n = k
  | some _, none => true
  | none, _ => true

/-- Every two lanes of a record are apart. -/
def allApart (r : PatchRec) : Bool := allLanes.all (fun n => allLanes.all (fun k => lanesApart r n k))

/-- The valid patches of a bank in which a port stands. -/
def homes (c : Settings) (b : Bank) (p : Port) : List Patch :=
  allPatches.filter (fun q => (bankRecord c b q).valid && stands (bankRecord c b q) p)

theorem mem_allPatches (q : Patch) : q ∈ allPatches := by revert q; decide

theorem mem_allLanes (n : Lane) : n ∈ allLanes := by revert n; decide

theorem oneLaneEach_of_allApart {r : PatchRec} (h : allApart r = true) : oneLaneEach r := by
  intro n k a b ha hb hab
  have hn := List.all_eq_true.1 h n (mem_allLanes n)
  have hk := List.all_eq_true.1 hn k (mem_allLanes k)
  simpa [lanesApart, ha, hb, hab] using hk

theorem eq_of_mem_short {α : Type} {xs : List α} (h : xs.length ≤ 1) {a b : α} (ha : a ∈ xs) (hb : b ∈ xs) : a = b := by
  match xs, h with
  | [], _ => cases ha
  | [x], _ => rw [List.mem_singleton.1 ha, List.mem_singleton.1 hb]

theorem planLaw_of_checks {c : Settings} (h1 : ∀ b : Bank, ∀ q : Patch, allApart (bankRecord c b q) = true)
    (h2 : ∀ b : Bank, ∀ p : Port, (homes c b p).length ≤ 1) : PlanLaw c := by
  refine ⟨fun b q => oneLaneEach_of_allApart (h1 b q), fun b p q r hq hr sq sr => ?_⟩
  refine eq_of_mem_short (h2 b p) ?_ ?_
  · exact List.mem_filter.2 ⟨mem_allPatches q, by simp [hq, sq]⟩
  · exact List.mem_filter.2 ⟨mem_allPatches r, by simp [hr, sr]⟩

theorem settingsLaw_of_checks {c : Settings}
    (h1 : ∀ b : Bank, ∀ q : Patch, ∀ n : Lane, (look (bankRecord c b q).lanes n).all memberInRange = true)
    (h2 : ∀ p : Port, portInRange p (look c.ports p) = true) (h3 : cadenceInRange c.cadence = true)
    (h4 : ∀ src : Source, look c.masks src &&& classMask (sourceClass src) = look c.masks src) : SettingsLaw c := by
  refine ⟨fun b q n m hm => ?_, h2, h3, h4⟩
  have := h1 b q n
  rw [hm] at this
  exact this

theorem lagLaw_of_checks {l : Live}
    (h : ∀ p : Port, ((look l.tx p).reader.all (fun r => placeLawful (look l.rings r.ring).head r)) = true) :
    LagLaw l := by
  intro p r _ hr
  have := h p
  rw [hr] at this
  exact this

theorem plan_listening : PlanLaw listening.cfg := planLaw_of_checks (by decide) (by decide)

theorem settings_listening : SettingsLaw listening.cfg :=
  settingsLaw_of_checks (by decide) (by decide) (by decide) (by decide)

theorem lag_listening : LagLaw listening.live := lagLaw_of_checks (by decide)

theorem memory_listening : MemoryLaw listening.cfg listening.live := by unfold MemoryLaw; decide
theorem port_listening : PortLaw listening.live := by unfold PortLaw; decide
theorem floor_listening : FloorLaw listening.live := by unfold FloorLaw; decide
theorem grant_listening : GrantLaw listening.live := by unfold GrantLaw; decide
theorem ignored_listening : IgnoredLaw listening.cfg listening.live := by unfold IgnoredLaw; decide
theorem claim_listening : ClaimLaw listening.cfg listening.live := by unfold ClaimLaw; decide
theorem switch_listening : SwitchLaw listening.live := by unfold SwitchLaw; decide
theorem pending_listening : PendingLaw listening.cfg listening.live := by unfold PendingLaw; decide
theorem report_listening : ReportLaw listening.live := by unfold ReportLaw; decide
theorem channel_listening : ChannelLaw listening.mci := by unfold ChannelLaw; decide

theorem override_listening : OverrideLaw listening.cfg listening.live := by unfold OverrideLaw; decide

/-- `listening` with a command that is due at the front of its queue. -/
def listeningNext : State := { listening with pending := [.corSettledFall 2] }

/-! ### Witnesses: states and operands that meet the hypotheses of the statements -/

theorem witness_StepTakesTheFrontCommand : State.reset.pending = [] := rfl

theorem witness_WhatIsNotDueChangesNothing :
    ¬ EventDue State.reset (.corSettledRise 0) ∧ ¬ EventDue State.reset .rstRelease ∧
    ¬ EventDue State.reset .replyStart ∧ ¬ EventDue State.reset (.reportStart true) ∧
    ¬ EventDue State.reset .orderTaken ∧ ¬ EventDue (running State.reset) .hfsPulse ∧
    carriedOrder (.identify []) = some (1, []) ∧ ¬ Holds State.reset 1 [] := by
  refine ⟨by unfold EventDue; decide, by unfold EventDue; decide, fun h => ?_, fun h => ?_, by unfold EventDue; decide,
    by unfold EventDue; decide, rfl, by decide⟩
  · exact absurd h.1 (by decide)
  · exact absurd h.1 (by decide)

theorem witness_PowerOnAndRstReset :
    ((after (.powerOnReset true) planned).hwi.inReset = true ∧ NoConditions (after (.powerOnReset true) planned).live) ∧
    (∃ u v, Answers .hfsPulse (after (.powerOnReset true) planned) u ∧
      Answers (.frameArrival (slots (fun _ => 0xFF)) true [.byte, .lane]) u v) ∧
    ∃ u, Answers .hfsPulse (after .rstReset (arrived planned)) u :=
  ⟨by decide, ⟨_, _, rfl, rfl⟩, _, rfl⟩

theorem witness_ResetOrder :
    (Holds (holding 2 [] talking) 2 [] ∧ (holding 2 [] talking).hwi.inReset = false) ∧
      (let s := holding 2 [] (arrived talking);
        Holds s 2 [] ∧ s.hwi.phase ≠ .running ∧ s.hwi.inReset = false ∧ s.hwi.formDue = true ∧
          ∃ t u, Answers (.reset []) s t ∧ Answers .hfsPulse t u) ∧
      ([1] : List Byte) ≠ [] ∧ Holds (holding 2 [1] talking) 2 [1] :=
  ⟨by decide, ⟨by decide, by decide, by decide, by decide, _, _, rfl, rfl⟩, by decide, by decide⟩

theorem witness_FrameArrivalTakesTheFrame :
    ((running talking).hwi.phase = .running ∧ (running talking).hwi.inReset = false) ∧
    ((running (after .rstReset talking)).hwi.phase = .running ∧ (running (after .rstReset talking)).hwi.inReset = true) ∧
    (arrived talking).hwi.phase ≠ .running := by
  and_intros <;> decide

theorem witness_FrameWorkIsTakenInTheListedOrder :
    ((running talking).hwi.phase = .running ∧ (running talking).hwi.inReset = false ∧
      ∃ t, Answers (.frameArrival (slots (fun _ => 0)) false []) (running talking) t) ∧
    ((switching 0 talking).live.switch.state = .pending ∧ (switching 0 talking).live.switch.grace = some 0 ∧
      talking.live.switch.state = .none) ∧
    (look (corDue true 0 talking).live.rx 0).cor.due = some true ∧
    (look (corDue false 17 talking).live.rx 17).cor.due = some false ∧
    (look (emgDue true 0 talking).live.rx 0).emg.due = some true ∧
    (look (emgDue false 15 talking).live.rx 15).emg.due = some false ∧
    ((Instr.protect [1, 0, 0, 0] false).wf = true ∧
      carriedOrder (.protect [1, 0, 0, 0] false) = some (0x50, [1, 0, 0, 0]) ∧
      (∀ k, keyOf (.protect [1, 0, 0, 0] false) = some k → k = (holding 0x50 [1, 0, 0, 0] talking).hwi.keysw) ∧
      Holds (holding 0x50 [1, 0, 0, 0] talking) 0x50 [1, 0, 0, 0]) := by
  refine ⟨⟨by decide, by decide, _, rfl⟩, by decide, by decide, by decide, by decide, by decide, by decide, rfl, ?_,
    by decide⟩
  intro k hk
  exact (Option.some.inj hk).symm

theorem witness_PulsesBeginFrames :
    (arrived talking).hwi.phase = .arrived ∧ State.reset.hwi.phase = .waiting ∧
    ((running talking).hwi.phase = .running ∧ 0 < 360 ∧ 359 < 360) ∧
    ((arrived talking).hwi.phase ≠ .running) ∧ State.reset.hwi.phase ≠ .arrived := by
  and_intros <;> decide

theorem witness_OutboundSlotsShowTheState :
    ((arrived talking).hwi.phase ≠ .running ∧ (arrived talking).hwi.formDue = true ∧
      ∃ t, Answers .hfsPulse (arrived talking) t) ∧
    (State.reset.hwi.phase ≠ .running ∧ State.reset.hwi.formDue = false ∧ ∃ t, Answers .hfsPulse State.reset t) :=
  ⟨⟨by decide, by decide, _, rfl⟩, by decide, by decide, _, rfl⟩

theorem witness_DebounceSettlesOnTheCompletingFrame :
    ((atLevel true).fresh = false ∧ (atLevel true).count = 0 ∧ 1 ≤ 1) ∧
    (Debounce.begun.fresh = true ∧ Debounce.begun.count = 0) ∧
    ({ Debounce.begun with count := 3 } : Debounce).run ≠ true := by
  and_intros <;> decide

theorem witness_MessagesAreParsedAndHandedOn :
    (0x80 : Byte) ≠ 0 ∧ (1 ≤ (1 : Byte).toNat ∧ (1 : Byte).toNat ≤ 60) ∧ (1 ≤ (60 : Byte).toNat ∧ (60 : Byte).toNat ≤ 60) ∧
    61 ≤ (61 : Byte).toNat ∧ 1 < 2 ∧
    ({ State.reset with mci := { Channel.fresh with inBytes := [1, 0] } } : State).mci.inBytes = 1 :: [0] ∧
    (parsedAs (.complete 1 [] true) State.reset).mci.parsed = some (.complete 1 [] true) ∧
    (parsedAs (.complete 1 [] false) State.reset).mci.parsed = some (.complete 1 [] false) ∧
    (parsedAs (.abandoned 1) State.reset).mci.parsed = some (.abandoned 1) := by
  and_intros <;> decide

/-- A channel in which an order, an owed refusal and reply places wait. -/
def channelOf (buffer : List Order) (owed : List Owed) (replies : List Place) : State :=
  { State.reset with mci := { Channel.fresh with buffer := buffer, owed := owed, replies := replies } }

/-- An IDENTIFY order. -/
def identifyOrder : Order := { kind := 1, body := [] }

/-- An owed BUSY. -/
def owedBusy : Owed := { kind := 1, status := .busy }

theorem witness_OrdersAndOwedRefusalsTakePlaces :
    ((channelOf [] [owedBusy] [.reserved]).mci.owed = [owedBusy] ∧
      (channelOf [] [owedBusy] [.reserved]).mci.replies.length < 2) ∧
    ((channelOf [identifyOrder] [] [.ready []]).mci.oru = none ∧ (channelOf [identifyOrder] [] [.ready []]).mci.owed = [] ∧
      (channelOf [identifyOrder] [] [.ready []]).mci.buffer = [identifyOrder] ∧
      (channelOf [identifyOrder] [] [.ready []]).mci.replies.length < 2) ∧
    ((channelOf [identifyOrder] [owedBusy] []).mci.oru = none ∧
      (channelOf [identifyOrder] [owedBusy] []).mci.owed = [owedBusy] ∧
      (channelOf [identifyOrder] [owedBusy] []).mci.buffer = [identifyOrder] ∧
      (channelOf [identifyOrder] [owedBusy] []).mci.replies = []) ∧
    (holding 1 [] State.reset).mci.oru ≠ none ∧ State.reset.mci.buffer = [] ∧
    2 ≤ (channelOf [identifyOrder] [owedBusy] [.ready []]).mci.replies.length +
      (channelOf [identifyOrder] [owedBusy] [.ready []]).mci.owed.length := by
  and_intros <;> decide

/-- No reply is ready at the front. -/
theorem no_reply_ready {m : Channel} (h : m.replies = []) : ∀ body more, m.replies ≠ .ready body :: more := by
  intro body more hb
  rw [h] at hb
  cases hb

theorem witness_OutboundBytePlaces :
    (let s := arrived { State.reset with mci := { Channel.fresh with out := [7] } };
      s.hwi.formDue = true ∧ (beforeLane s).hwi.lanes.length < 2 ∧ (beforeLane s).mci.out = [7]) ∧
    (let s := arrived (channelOf [] [] [.ready [1, 0]]);
      s.hwi.formDue = true ∧ (beforeLane s).hwi.lanes.length < 2 ∧ (beforeLane s).mci.out = [] ∧
        (beforeLane s).mci.replies = [.ready [1, 0]]) ∧
    (let s := arrived State.reset;
      s.hwi.formDue = true ∧ (beforeLane (withKey true s)).hwi.lanes.length < 2 ∧
        (beforeLane (withKey true s)).mci.out = [] ∧
        (∀ body more, (beforeLane (withKey true s)).mci.replies ≠ .ready body :: more) ∧
        (beforeLane (withKey true s)).live.queue = [26]) ∧
    (withKey true (arrived State.reset)).hwi.keysw = true ∧
    (let s := arrived (after (.powerOnReset true) State.reset);
      s.hwi.formDue = true ∧ (beforeLane s).hwi.lanes.length < 2 ∧ (beforeLane s).mci.out = [] ∧
        (∀ body more, (beforeLane s).mci.replies ≠ .ready body :: more) ∧ (beforeLane s).live.queue = []) :=
  ⟨by decide, by decide, ⟨by decide, by decide, by decide, no_reply_ready (by decide), by decide⟩, by decide,
    by decide, by decide, by decide, no_reply_ready (by decide), by decide⟩

theorem witness_SnapshotsReportTheState :
    (0 < 8 ∧ (1 : Byte).getLsbD 0 = true ∧ ∀ k, k < 0 → (1 : Byte).getLsbD k = false) ∧
    (7 < 8 ∧ (0x80 : Byte).getLsbD 7 = true ∧ ∀ k, k < 7 → (0x80 : Byte).getLsbD k = false) := by decide

/-! ### Orders that read -/

theorem witness_IdentifyAnswersTheFixedCodes : Holds (holding 1 [] talking) 1 [] := by decide

theorem witness_BadLengthsAndUnknownKindsAreRefused :
    ((Instr.identify [0]).wf = true ∧ carriedOrder (.identify [0]) = some (1, [0]) ∧
      lengthAllowed 1 ([0] : List Byte).length = false ∧ Holds (holding 1 [0] talking) 1 [0]) ∧
    ((Instr.loadTone [0, 0, 0]).wf = true ∧ carriedOrder (.loadTone [0, 0, 0]) = some (0x48, [0, 0, 0]) ∧
      lengthAllowed 0x48 ([0, 0, 0] : List Byte).length = false ∧ Holds (holding 0x48 [0, 0, 0] talking) 0x48 [0, 0, 0]) ∧
    ((0x03 : Byte) ∉ orderKinds ∧ Holds (holding 3 [] talking) 3 []) ∧
    ((0 : Byte).toNat = 0 ∧ Holds (holding 0x50 [0, 0, 0, 0] talking) 0x50 [0, 0, 0, 0]) ∧
    (6 < (7 : Byte).toNat ∧ Holds (holding 0x50 [7, 0, 0, 0] talking) 0x50 [7, 0, 0, 0]) := by
  and_intros <;> decide

theorem witness_ReadPortAnswersRecordAndSignalling :
    Holds (holding 0x10 [BitVec.ofNat 8 (0 : Port).val] talking) 0x10 [BitVec.ofNat 8 (0 : Port).val] ∧
    Holds (holding 0x10 [BitVec.ofNat 8 (17 : Port).val] talking) 0x10 [BitVec.ofNat 8 (17 : Port).val] ∧
    (17 < (18 : Byte).toNat ∧ Holds (holding 0x10 [18] talking) 0x10 [18]) := by
  and_intros <;> decide

theorem witness_ReadPatchAnswersTheStoredRecord :
    ((1 : Byte).toNat < 2 ∧
      Holds (holding 0x20 [1, BitVec.ofNat 8 (7 : Patch).val] talking) 0x20 [1, BitVec.ofNat 8 (7 : Patch).val]) ∧
    (1 < (2 : Byte).toNat ∧ Holds (holding 0x20 [2, 0] talking) 0x20 [2, 0]) ∧
    (7 < (8 : Byte).toNat ∧ Holds (holding 0x20 [0, 8] talking) 0x20 [0, 8]) := by
  and_intros <;> decide

theorem witness_ReadRingListsTheReaders :
    Holds (holding 0x70 [BitVec.ofNat 8 (7 : Patch).val] listening) 0x70 [BitVec.ofNat 8 (7 : Patch).val] ∧
    (7 < (8 : Byte).toNat ∧ Holds (holding 0x70 [8] listening) 0x70 [8]) := by
  and_intros <;> decide

theorem witness_ReadConditionsAnswersTheSets :
    Holds (holding 0x61 [BitVec.ofNat 8 (26 : Source).val] talking) 0x61 [BitVec.ofNat 8 (26 : Source).val] ∧
    (26 < (27 : Byte).toNat ∧ Holds (holding 0x61 [27] talking) 0x61 [27]) := by
  and_intros <;> decide

theorem witness_ReadProtectionAnswersFlagsAndKey : Holds (holding 0x51 [] talking) 0x51 [] := by decide

/-! ### Orders on protection and reports -/

/-- The protection lock is set. -/
def locked (s : State) : State := { s with cfg := { s.cfg with plk := true } }

theorem witness_FlagOperationsWriteTheFlags :
    (Holds (holding 0x50 [1, 0, 0, 4] talking) 0x50 [1, 0, 0, 4] ∧ 3 < (4 : Byte).toNat) ∧
    (Holds (holding 0x50 [1, 0, 0, 3] (switching 8 talking)) 0x50 [1, 0, 0, 3] ∧ (3 : Byte).toNat ≤ 3 ∧
      (holding 0x50 [1, 0, 0, 3] (switching 8 talking)).live.switch.state = .pending) ∧
    (Holds (holding 0x50 [2, 0, 0, 3] (locked talking)) 0x50 [2, 0, 0, 3] ∧
      (holding 0x50 [2, 0, 0, 3] (locked talking)).live.switch.state = .none ∧
      (holding 0x50 [2, 0, 0, 3] (locked talking)).cfg.plk = true) ∧
    (Holds (holding 0x50 [3, 0, 0, 9] talking) 0x50 [3, 0, 0, 9] ∧
      (holding 0x50 [3, 0, 0, 9] talking).live.switch.state = .none ∧
      (holding 0x50 [3, 0, 0, 9] talking).cfg.plk = false) ∧
    Holds (holding 0x50 [4, 0, 0, 0] talking) 0x50 [4, 0, 0, 0] := by
  and_intros <;> decide

theorem witness_LockOperationsFollowTheKey :
    (Holds (holding 0x50 [5, 0, 0, 0] (switching 8 talking)) 0x50 [5, 0, 0, 0] ∧
      (holding 0x50 [5, 0, 0, 0] (switching 8 talking)).live.switch.state = .pending) ∧
    (Holds (holding 0x50 [5, 0, 0, 0] talking) 0x50 [5, 0, 0, 0] ∧
      (holding 0x50 [5, 0, 0, 0] talking).live.switch.state = .none) ∧
    (Holds (holding 0x50 [6, 0, 0, 0] (switching 8 talking)) 0x50 [6, 0, 0, 0] ∧
      (holding 0x50 [6, 0, 0, 0] (switching 8 talking)).live.switch.state = .pending) ∧
    (Holds (holding 0x50 [6, 0, 0, 0] (locked talking)) 0x50 [6, 0, 0, 0] ∧
      (holding 0x50 [6, 0, 0, 0] (locked talking)).cfg.plk = true) ∧
    (Holds (holding 0x50 [6, 0, 0, 0] talking) 0x50 [6, 0, 0, 0] ∧
      (holding 0x50 [6, 0, 0, 0] talking).cfg.plk = false) := by
  and_intros <;> decide

theorem witness_SetReportMaskWritesTheClassBits :
    Holds (holding 0x60 [BitVec.ofNat 8 (26 : Source).val, 0xFF] talking) 0x60 [BitVec.ofNat 8 (26 : Source).val, 0xFF] ∧
    (26 < (27 : Byte).toNat ∧ Holds (holding 0x60 [27, 0] talking) 0x60 [27, 0]) := by
  and_intros <;> decide

theorem witness_ClearConditionsEmptiesTheSets :
    Holds (holding 0x62 [BitVec.ofNat 8 (26 : Source).val] talking) 0x62 [BitVec.ofNat 8 (26 : Source).val] ∧
    (26 < (27 : Byte).toNat ∧ Holds (holding 0x62 [27] talking) 0x62 [27]) := by
  and_intros <;> decide

theorem witness_ConditionsAreRecordedAndQueued : 0 < 8 ∧ 7 < 8 ∧ (25 : Source) ≠ 26 := by decide

/-! ### Orders on ports and plan -/

/-- The port record with FULL duplex and RXLO off, with which no COR is ignored. -/
def openRecord : PortRec := { PortRec.powerOn 9 with duplex := .full, rxlo := false }

/-- The body of a SET PORT. -/
def setPortBody (p : Port) (r : PortRec) : List Byte := BitVec.ofNat 8 p.val :: portBytes r

/-- The port record of RP9 is open. -/
def opened (s : State) : State := { s with cfg := { s.cfg with ports := put s.cfg.ports 9 openRecord } }

theorem witness_SetPortStoresTheClampedRecord :
    Carriable openRecord ∧ Carriable (PortRec.powerOn 9) ∧
    (let s := holding 0x11 (setPortBody 3 openRecord) listening;
      Holds s 0x11 (setPortBody 3 openRecord) ∧ (Ignored s.cfg (catchUp s).live 3 ↔
        Ignored { s.cfg with ports := put s.cfg.ports 3 (storedPort 3 openRecord) } (catchUp s).live 3)) ∧
    (let s := holding 0x11 (setPortBody 9 openRecord) listening;
      Holds s 0x11 (setPortBody 9 openRecord) ∧ Ignored s.cfg (catchUp s).live 9 ∧
        ¬ Ignored { s.cfg with ports := put s.cfg.ports 9 (storedPort 9 openRecord) } (catchUp s).live 9) ∧
    (let s := holding 0x11 (setPortBody 9 (PortRec.powerOn 9)) (opened listening);
      Holds s 0x11 (setPortBody 9 (PortRec.powerOn 9)) ∧ ¬ Ignored s.cfg (catchUp s).live 9 ∧
        Ignored { s.cfg with ports := put s.cfg.ports 9 (storedPort 9 (PortRec.powerOn 9)) } (catchUp s).live 9 ∧
        (look (catchUp s).live.rx 9).rx ≠ .active) ∧
    (look (catchUp (receiving .active 9 (opened listening))).live.rx 9).rx = .active ∧
    (([18, 0, 0, 0, 0, 0, 0, 0, 0, 0, 0, 0] : List Byte).length = 12 ∧
      17 < (([18, 0, 0, 0, 0, 0, 0, 0, 0, 0, 0, 0] : List Byte).getD 0 0).toNat ∧
      Holds (holding 0x11 [18, 0, 0, 0, 0, 0, 0, 0, 0, 0, 0, 0] talking) 0x11 [18, 0, 0, 0, 0, 0, 0, 0, 0, 0, 0, 0]) := by
  and_intros <;> decide

/-- RP9 in FAULT. -/
def faulty (s : State) : State := sending { TxPort.dormant with state := .fault } 9 s

theorem witness_ClearPortLiftsLockoutAndFault :
    (let s := holding 0x12 [BitVec.ofNat 8 (9 : Port).val] talking;
      Holds s 0x12 [BitVec.ofNat 8 (9 : Port).val] ∧ (look (catchUp s).live.rx 9).rx ≠ .lockout ∧
        (look (catchUp s).live.tx 9).state ≠ .fault) ∧
    (let s := receiving .lockout 9 (sending (reader .onAir) 9 talking);
      (look (catchUp s).live.rx 9).rx = .lockout ∧ Ignored s.cfg (catchUp s).live 9) ∧
    (let s := receiving .lockout 9 talking;
      (look (catchUp s).live.rx 9).rx = .lockout ∧ ¬ Ignored s.cfg (catchUp s).live 9 ∧
        (look (catchUp s).live.tx 9).state ≠ .fault) ∧
    (let s := faulty talking;
      (look (catchUp s).live.rx 9).rx ≠ .lockout ∧ (look (catchUp s).live.tx 9).state = .fault) ∧
    (let s := receiving .lockout 9 (faulty talking);
      let keyed := settleKeys s.cfg ((catchUp s).live.setTx 9 TxPort.dormant);
      (look (catchUp s).live.rx 9).rx = .lockout ∧ (look (catchUp s).live.tx 9).state = .fault ∧ Ignored s.cfg keyed 9) ∧
    (let s := receiving .lockout 9 (faulty planned);
      ¬ Ignored s.cfg (settleKeys s.cfg ((catchUp s).live.setTx 9 TxPort.dormant)) 9) ∧
    (17 < (18 : Byte).toNat ∧ Holds (holding 0x12 [18] talking) 0x12 [18]) := by
  and_intros <;> decide

/-- A valid record without members. -/
def emptyRecord : PatchRec := patchOf .single []

/-- The body of a DEFINE PATCH. -/
def defineBody (sel : Byte) (q : Patch) (r : PatchRec) : List Byte := [sel, BitVec.ofNat 8 q.val] ++ recordBytes r

/-- What a DEFINE PATCH meets: its checks and the settings it would leave. -/
def meetsDefine (sel : Byte) (q : Patch) (carried : PatchRec) (s : State) : Prop :=
  sel.toNat < 2 ∧ (∀ n : Lane, OverrideCarriable (look carried.lanes n)) ∧ Holds s 0x21 (defineBody sel q carried)

theorem witness_DefinePatchWritesTheRecord :
    meetsDefine 0 2 emptyRecord (holding 0x21 (defineBody 0 2 emptyRecord) talking) ∧
    talking.live.switch.state = .none ∧ (switching 8 talking).live.switch.state = .pending ∧
    HasProtected (protecting 2 talking).cfg (bankRecord (protecting 2 talking).cfg 0 0) ∧
    ¬ HasProtected talking.cfg (bankRecord talking.cfg 0 2) ∧ ¬ HasProtected talking.cfg (storedRecord emptyRecord) ∧
    ¬ Idle talking.cfg talking.live 0 ∧ Idle talking.cfg talking.live 2 ∧
    ((storedRecord record0).valid = true ∧
      ∃ p : Port, StandsIn (storedRecord record0) p ∧ ElsewhereValid talking.cfg 0 2 p) ∧
    ¬ ((∃ n k : Lane, n ≠ k ∧ ∃ m ∈ look (storedRecord emptyRecord).lanes n,
          ∃ o ∈ look (storedRecord emptyRecord).lanes k, m.port = o.port) ∨
        ((storedRecord emptyRecord).valid = true ∧
          ∃ p : Port, StandsIn (storedRecord emptyRecord) p ∧ ElsewhereValid talking.cfg 0 2 p)) ∧
    (defineBody 2 0 emptyRecord).length = 51 ∧ 1 < ((defineBody 2 0 emptyRecord).getD 0 0).toNat ∧
    (17 < (0xF2 : Byte).toNat % 32 ∧ (0xF2 : Byte).getLsbD 7 = true) ∧ 15 < (16 : Byte).toNat ∧ 7 < (8 : Byte).toNat ∧
    Holds (holding 0x21 (defineBody 2 0 emptyRecord) talking) 0x21 (defineBody 2 0 emptyRecord) := by
  unfold meetsDefine
  and_intros <;> decide

/-- A FAULT port leaves P0: the live clauses of DEFINE PATCH are met. -/
theorem witness_DefinePatch_fault :
    (look (faulty planned).live.tx 9).state = .fault ∧ StandsIn (bankRecord planned.cfg 0 0) 9 ∧
    ¬ StandsIn (storedRecord emptyRecord) 9 ∧ StandsIn (storedRecord record0) 9 ∧
    Idle planned.cfg (catchUp (finishRing (faulty planned))).live 0 := by
  and_intros <;> decide

/-- RP2 is RX_ACTIVE and claims nothing yet; P0 is idle, RP9 in FAULT. -/
def readyToClaim : State := receiving .active 2 (faulty planned)

/-- The clauses on how the ports follow a live DEFINE are met: a port in FAULT that leaves the record; a console that
listens, DORMANT and off the floor that RP2 is given; a port that reads nothing. -/
theorem witness_DefinePatch_follows :
    FollowPremises readyToClaim.cfg (catchUp (finishRing readyToClaim)).live ∧
    ((look readyToClaim.live.tx 9).state = .fault ∧ StandsIn (bankRecord planned.cfg 0 0) 9 ∧
      ¬ StandsIn (storedRecord emptyRecord) 9 ∧ StandsIn (storedRecord record0) 9) ∧
    (look readyToClaim.live.tx 16).state = .dormant ∧ readyToClaim.live.guestHolder = none ∧
    reads readyToClaim.live 16 0 = false ∧
    (let t := (after (.definePatch (defineBody 0 0 record0)) (holding 0x21 (defineBody 0 0 record0) readyToClaim)).live;
      listenMember planned.cfg t 0 16 = true ∧ (ctxOf t 0).source = .receive ∧ (ctxOf t 0).floor = [2]) := by
  refine ⟨⟨plan_listening, settings_listening, ?_, ?_, ?_, ?_⟩, ?_⟩
  all_goals first | decide | (unfold ClaimLaw; decide) | (unfold GrantLaw; decide) | (unfold IgnoredLaw; decide)

/-- RP5 to RP8 talk in P2, where RP10, HALF and in FAULT, waits; RP10 stands in the invalid record of P3 too. -/
def freedElsewhere : State :=
  withPatch 3 { patchOf .single [member 10 true true 2] with valid := false }
    (sending { TxPort.dormant with state := .fault } 10 (crowded (member 10 true true 2)))

/-- The clauses on the other patches of a live DEFINE are met: RP10, freed by a DEFINE of P3, keys in P2, which mixes, and
its claim there is released; P1 keeps its claimants. -/
theorem witness_DefinePatch_elsewhere :
    FollowPremises freedElsewhere.cfg (catchUp (finishRing freedElsewhere)).live ∧
    (let u := (catchUp (finishRing freedElsewhere)).live;
      let t := (after (.definePatch (defineBody 0 3 emptyRecord)) (holding 0x21 (defineBody 0 3 emptyRecord)
        freedElsewhere)).live;
      Idle freedElsewhere.cfg u 3 ∧ StandsIn (bankRecord freedElsewhere.cfg 0 3) 10 ∧
        ¬ StandsIn (storedRecord emptyRecord) 10 ∧ (look u.tx 10).state = .fault ∧ (look t.tx 10).state = .keying ∧
        (ctxOf u 2).mode = .mix ∧ (ctxOf u 2).source = .receive ∧ (look u.fla 2).freezing = false ∧
        claimantsOf u 2 = [5, 6, 7, 8, 10] ∧ claimantsOf t 2 = [5, 6, 7, 8] ∧ claimantsOf t 1 = claimantsOf u 1) := by
  refine ⟨⟨planLaw_of_checks (by decide) (by decide),
    settingsLaw_of_checks (by decide) (by decide) (by decide) (by decide), ?_, ?_, ?_, ?_⟩, by decide⟩
  all_goals first | decide | (unfold ClaimLaw; decide) | (unfold GrantLaw; decide) | (unfold IgnoredLaw; decide)

/-- The clause on a new record that mixes is met, P2 being idle. -/
theorem witness_DefinePatch_mix :
    PlanLaw talking.cfg ∧ SettingsLaw talking.cfg ∧ (storedRecord (record5 (member 10 true true 2))).mode = .mix ∧
      Idle talking.cfg talking.live 2 :=
  ⟨plan_listening, settings_listening, by decide, by decide⟩

/-- The body of a SET MEMBER. -/
def memberBody (sel : Byte) (q : Patch) (n : Lane) (lane : Option MemberRec) : List Byte :=
  [sel, BitVec.ofNat 8 q.val, BitVec.ofNat 8 n.val] ++ laneBytes lane

theorem witness_SetMemberEditsOneLane :
    ((0 : Byte).toNat < 2 ∧ OverrideCarriable (some (member 5 true false 3)) ∧
      Holds (holding 0x22 (memberBody 0 0 3 (some (member 5 true false 3))) talking) 0x22
        (memberBody 0 0 3 (some (member 5 true false 3)))) ∧
    talking.live.switch.state = .none ∧ (switching 8 talking).live.switch.state = .pending ∧
    look (protecting 5 talking).cfg.flags (5 : Port) = true ∧ ¬ HasProtected talking.cfg (bankRecord talking.cfg 0 0) ∧
    Overridden (maydayOn 0 2 talking).live 0 ∧ ¬ Overridden talking.live 0 ∧
    ElsewhereValid talking.cfg 0 0 3 ∧ ¬ ElsewhereValid talking.cfg 0 0 5 ∧
    (bankRecord talking.cfg 0 0).valid = true ∧ (bankRecord talking.cfg 0 5).valid = false ∧
    look (bankRecord talking.cfg 0 0).lanes 3 = none ∧
    look (bankRecord talking.cfg 0 0).lanes 0 = some (member 2 true true 6) ∧
    (some (member 2 true true 6) ≠ some (member 2 true true 5) ∧
      ¬ FieldsOnly (some (member 2 true true 6)) (some (member 2 true false 5))) ∧
    (FieldsOnly (some (member 2 true true 6)) (some (member 2 true true 5)) ∧
      some (member 2 true true 6) ≠ some (member 2 true true 5)) ∧
    (ctxOf talking.live 0).restriction = none ∧ (look talking.live.fla 0).freezing = false ∧
    (memberBody 0 0 3 (some (member 5 true false 3))).length = 9 ∧
    7 < (([0, 0, 8, 0, 0, 0, 0, 0, 0] : List Byte).getD 2 0).toNat ∧
    15 < (([0, 0, 0, 0x80, 16, 0, 0, 0, 0] : List Byte).getD 4 0).toNat := by
  and_intros <;> decide

/-- The premises and the clauses of a live edit, lane 0 of P0 being RP2's and lane 3 empty. -/
theorem witness_SetMember_edit :
    (PlanLaw listening.cfg ∧ SettingsLaw listening.cfg ∧ FloorLaw listening.live ∧ GrantLaw listening.live ∧
      ClaimLaw listening.cfg listening.live) ∧
    (ctxOf listening.live 0).mode = .single ∧ (ctxOf (mixing [3]).live 1).mode = .mix ∧
    ¬ Arbitrates none (some (member 5 true false 3)) listening.live 0 ∧
    (Arbitrates (some (member 2 true true 6)) none listening.live 0 ∧
      floorLeft (some (member 2 true true 6)) none listening.live 0 = []) ∧
    (floorLeft none (some (member 5 true true 3)) listening.live 0 = [2] ∧
      claimsByEdit none (some (member 5 true true 3)) (receiving .active 5 listening).live 5 = true) ∧
    Arbitrates (some (member 3 true true 1)) (some (member 3 false true 4)) (mixing [3]).live 1 ∧
    3 ∈ editedClaimants none none (mixing [3]).live 1 ∧
    (names (some (member 9 true true 6)) 9 = true ∧ names none 9 = false ∧ listenOf (some (member 9 true true 6)) 9 = true) ∧
    (look (faulty listening).live.tx 9).state = .fault ∧ (look listening.live.tx 5).state = .dormant ∧
    listening.live.guestHolder = none ∧ (maydayOn 1 3 listening).live.guestHolder = some 1 ∧
    reads (maydayOn 1 3 listening).live 16 0 = false := by
  refine ⟨⟨plan_listening, settings_listening, floor_listening, grant_listening, claim_listening⟩, ?_⟩
  unfold Arbitrates
  and_intros <;> decide

/-- RP9 waits in P0 and reads its ring, its COR not being ignored; C0 reads it too. RP2's COR has fallen. -/
def waitingReader : State :=
  withLive (fun l => l.setClaimants 0 [2, 9]) (receiving .active 9 (sharing (opened listening)))

/-- The clauses of a live edit on a patch that mixes and makes no arbitration, with and without a claim released by a
keying, and on how the other ports follow it, are met. -/
theorem witness_SetMember_follows :
    (let s := mixing [3];
      (ctxOf s.live 1).mode = .mix ∧ ¬ Arbitrates none (some (member 5 true false 3)) s.live 1 ∧
        ∀ p ∈ editedClaimants none (some (member 5 true false 3)) s.live 1, p ∈ claimantsOf s.live 1) ∧
    (let old := some (member 10 false true 2);
      let new := some (member 10 true true 2);
      let s := crowded (member 10 false true 2);
      let t := (after (.setMember (memberBody 0 2 4 new)) (holding 0x22 (memberBody 0 2 4 new) s)).live;
      look (bankRecord s.cfg 0 2).lanes 4 = old ∧ ¬ Arbitrates old new s.live 2 ∧
        10 ∈ editedClaimants old new s.live 2 ∧ 10 ∉ claimantsOf t 2) ∧
    (FollowPremises waitingReader.cfg (catchUp (finishRing waitingReader)).live ∧
      FloorLaw (catchUp (finishRing waitingReader)).live) ∧
    (let u := (catchUp (finishRing waitingReader)).live;
      (ctxOf u 0).restriction = none ∧ (look u.fla 0).freezing = false ∧
        ¬ StopsListening (some (member 2 true true 6)) (some (member 2 true false 6)) 9 ∧ reads u 9 0 = true ∧
        (ctxOf (after (.setMember (memberBody 0 0 0 (some (member 2 true false 6)))) (holding 0x22
          (memberBody 0 0 0 (some (member 2 true false 6))) waitingReader)).live 0).floor = [9]) := by
  unfold Arbitrates
  refine ⟨by decide, by decide, ⟨⟨plan_listening,
    settingsLaw_of_checks (by decide) (by decide) (by decide) (by decide), ?_, ?_, ?_, ?_⟩, ?_⟩, by decide⟩
  all_goals first | decide | (unfold ClaimLaw; decide) | (unfold GrantLaw; decide) | (unfold IgnoredLaw; decide)
                  | (unfold FloorLaw; decide)

theorem witness_DeletePatchClearsTheRecord :
    ((1 : Byte).toNat < 2 ∧
      Holds (holding 0x23 [1, BitVec.ofNat 8 (7 : Patch).val] talking) 0x23 [1, BitVec.ofNat 8 (7 : Patch).val]) ∧
    talking.live.switch.state = .none ∧ (switching 8 talking).live.switch.state = .pending ∧
    HasProtected (protecting 9 talking).cfg (bankRecord talking.cfg 0 0) ∧
    ¬ HasProtected talking.cfg (bankRecord talking.cfg 0 0) ∧ ¬ Idle talking.cfg (catchUp talking).live 0 ∧
    Idle planned.cfg (catchUp planned).live 0 ∧ (bankRecord planned.cfg 0 0).valid = true ∧
    (bankRecord planned.cfg 0 7).valid = false ∧ (look (faulty planned).live.tx 9).state = .fault ∧
    StandsIn (bankRecord planned.cfg 0 0) 9 ∧ (look planned.live.tx 9).state ≠ .fault ∧
    ¬ StandsIn (bankRecord planned.cfg 0 0) 3 ∧
    (1 < (2 : Byte).toNat ∧ Holds (holding 0x23 [2, 0] talking) 0x23 [2, 0]) ∧
    (7 < (8 : Byte).toNat ∧ Holds (holding 0x23 [0, 8] talking) 0x23 [0, 8]) := by
  and_intros <;> decide

theorem witness_ClearBankClearsEveryRecord :
    ((0 : Byte).toNat < 2 ∧ Holds (holding 0x24 [0] talking) 0x24 [0]) ∧
    ((1 : Byte).toNat < 2 ∧ Holds (holding 0x24 [1] talking) 0x24 [1]) ∧
    talking.live.switch.state = .none ∧ (switching 8 talking).live.switch.state = .pending ∧
    (∃ q : Patch, HasProtected (protecting 9 talking).cfg (bankRecord talking.cfg 0 q)) ∧
    ¬ (∃ q : Patch, HasProtected talking.cfg (bankRecord talking.cfg 0 q)) ∧
    (∃ q : Patch, ¬ Idle talking.cfg (catchUp talking).live q) ∧
    (∀ q : Patch, Idle planned.cfg (catchUp planned).live q) ∧
    ((look (faulty planned).live.tx 9).state = .fault ∧ (look planned.live.tx 9).state ≠ .fault ∧
      (bankRecord planned.cfg 0 0).valid = true ∧ StandsIn (bankRecord planned.cfg 0 0) 9) ∧
    (1 < (2 : Byte).toNat ∧ Holds (holding 0x24 [2] talking) 0x24 [2]) := by decide

/-! ### Plan switching -/

theorem witness_SwitchPlanSwapsForcesOrWaits :
    Holds (holding 0x30 [0] talking) 0x30 [0] ∧ Holds (holding 0x30 [31] talking) 0x30 [31] ∧
    talking.live.switch.state = .none ∧ (switching 8 talking).live.switch.state = .pending ∧
    (∃ p : Port, AffectedBy (protecting 2 talking).cfg (Involved talking.cfg talking.live) p ∧
      look (protecting 2 talking).cfg.flags p = true) ∧
    ¬ (∃ p : Port, AffectedBy talking.cfg (Involved talking.cfg talking.live) p ∧ look talking.cfg.flags p = true) ∧
    (∃ q ∈ Involved talking.cfg talking.live, Overridden (maydayOn 0 2 talking).live q) ∧
    ¬ (∃ q ∈ Involved talking.cfg talking.live, Overridden (catchUp talking).live q) ∧
    (∀ q ∈ Involved planned.cfg planned.live, Idle planned.cfg (catchUp planned).live q) ∧
    ¬ (∀ q ∈ Involved talking.cfg talking.live, Idle talking.cfg (catchUp talking).live q) ∧ (31 : Byte) ≠ 0 := by
  and_intros <;> decide

/-- The clause of a swap on a patch that mixes is met: the STANDBY record of P2 mixes. -/
theorem witness_Swapped_mix :
    (let c := { planned.cfg with banks := put planned.cfg.banks 1 (put (look planned.cfg.banks 1) 2
        (record5 (member 10 true true 2))) };
      2 ∈ Involved c planned.live ∧ (bankRecord c (otherBank planned.live.active) 2).mode = .mix ∧
        ∀ q ∈ Involved c planned.live, Idle c planned.live q) := by decide

/-- The STANDBY record of P0 mixes the members of the ACTIVE one; that of P1 is the ACTIVE one. -/
def restaged (s : State) : State :=
  { s with cfg := (s.cfg.setRecord 1 0 { record0 with mode := .mix }).setRecord 1 1 record1 }

/-- The clauses on how the ports follow a swap are met: with every patch idle, by a DORMANT listener whose patch has a
claimant under its new record, by a port in FAULT that is affected, and by one that is a member of a patch not involved;
by readers that a force cuts, one that is keyed afresh and one that stays DORMANT. -/
theorem witness_Swapped_follows :
    (let s := sending { TxPort.dormant with state := .fault } 3 (restaged readyToClaim);
      let t := (after (.switchPlan [0]) (holding 0x30 [0] s)).live;
      FollowPremises s.cfg (catchUp s).live ∧ Involved s.cfg (catchUp s).live = [0] ∧
        (∀ q ∈ Involved s.cfg (catchUp s).live, Idle s.cfg (catchUp s).live q) ∧
        FreedBySwap s.cfg [0] (catchUp s).live t 9 ∧
        ((look s.live.tx 3).state = .fault ∧ memberIn s.cfg t 1 3 ≠ none) ∧
        ((look s.live.tx 16).state = .dormant ∧ listenMember s.cfg t 0 16 = true ∧ s.live.guestHolder = none ∧
          (ctxOf t 0).source = .receive ∧ (ctxOf t 0).floor = [2])) ∧
    (let s := restaged (sharing (sending (reader .onAir) 9 talking));
      let t := (after (.switchPlan [0]) (holding 0x30 [0] s)).live;
      FollowPremises s.cfg (catchUp s).live ∧ 0 ∈ Involved s.cfg (catchUp s).live ∧ reads (catchUp s).live 9 0 = true ∧
        (look t.tx 9).state = .keying) ∧
    (let s := sharing (sending (reader .onAir) 9 talking);
      let t := (after (.switchPlan [0]) (holding 0x30 [0] s)).live;
      FollowPremises s.cfg (catchUp s).live ∧ reads (catchUp s).live 9 0 = true ∧ Ignored s.cfg (catchUp s).live 9 ∧
        (look t.tx 9).state = .dormant) := by
  refine ⟨⟨⟨planLaw_of_checks (by decide) (by decide),
      settingsLaw_of_checks (by decide) (by decide) (by decide) (by decide), ?_, ?_, ?_, ?_⟩, by decide⟩,
    ⟨⟨planLaw_of_checks (by decide) (by decide),
      settingsLaw_of_checks (by decide) (by decide) (by decide) (by decide), ?_, ?_, ?_, ?_⟩, by decide⟩,
    ⟨plan_listening, settings_listening, ?_, ?_, ?_, ?_⟩, by decide⟩
  all_goals first | (unfold ClaimLaw; decide) | (unfold GrantLaw; decide) | (unfold IgnoredLaw; decide) | decide

/-- A switch that involves P0 alone is pending; RP2 holds the floor of P0 and C0 waits, both readers following. -/
def frozenHolder (claimants : List Port) : State :=
  switching 8 (withLive (fun l => l.setClaimants 0 claimants)
    (claimants.foldl (fun s p => receiving .active p s) (sharing (sending (reader .onAir) 9 talking))))

/-- A switch that involves P1 alone is pending, in which RP3 and RP4 talk. -/
def frozenMix : State :=
  withLive (fun l =>
    { l.setFreezing 1 true with
      switch := { l.switch with state := .pending, involved := [1], grace := some 8 } }) (mixing [3, 4])

/-- The clauses of an abort on a holder and on a talker set are met. -/
theorem witness_Aborted_floors :
    (PlanLaw talking.cfg ∧ SettingsLaw talking.cfg) ∧
    (let s := frozenHolder [2, 16];
      ClaimLaw s.cfg s.live ∧ Following s.cfg (catchUp s).live ∧ (ctxOf s.live 0).mode = .single ∧
        (ctxOf s.live 0).floor = [2] ∧ (ctxOf s.live 0).restriction = none ∧ (ctxOf s.live 0).source = .receive ∧
        (claimantsOf s.live 0).filter (fun p => rankIn s.cfg s.live 0 p < rankIn s.cfg s.live 0 2) = [16]) ∧
    (let s := frozenHolder [2];
      (claimantsOf s.live 0).filter (fun p => rankIn s.cfg s.live 0 p < rankIn s.cfg s.live 0 2) = []) ∧
    (let s := frozenMix;
      ClaimLaw s.cfg s.live ∧ Following s.cfg (catchUp s).live ∧ (ctxOf s.live 1).mode = .mix ∧
        (ctxOf s.live 1).restriction = none ∧ (ctxOf s.live 1).source = .receive) ∧
    (let s := frozenHolder [2, 16];
      ClaimLaw s.cfg (catchUp s).live ∧ GrantLaw (catchUp s).live) := by
  refine ⟨⟨plan_listening, settings_listening⟩, ?_⟩
  unfold ClaimLaw GrantLaw
  and_intros <;> decide

theorem witness_PendingSwitchIsSwappedForcedOrAborted :
    ((switching 8 planned).live.switch.state = .pending ∧
      ∀ q ∈ (switching 8 planned).live.switch.involved, Idle planned.cfg (switching 8 planned).live q) ∧
    (∃ q ∈ (switching 8 talking).live.switch.involved, ¬ Idle talking.cfg (switching 8 talking).live q) ∧
    (let s := switching 8 (sending { reader .hang with hang := some 0 } 9 planned);
      s.live.switch.state = .pending ∧ (look s.live.tx 9).state = .hang ∧ (look s.live.tx 9).hang = some 0 ∧
        ∀ q ∈ s.live.switch.involved, Idle s.cfg (hangUp 9 s.cfg (catchUp s).live) q) ∧
    ((switching 0 talking).live.switch.state = .pending ∧ (switching 0 talking).live.switch.grace = some 0) ∧
    Holds (holding 0x31 [] talking) 0x31 [] ∧ talking.live.switch.state = .none ∧
    (switching 8 talking).live.switch.state = .pending ∧
    ctxOf (switching 8 planned).live 0 = { mode := .single, floor := [], restriction := none, source := .receive } ∧
    0 ∈ (switching 8 planned).live.switch.involved := by
  and_intros <;> decide

/-! ### Mayday and alert -/

/-- A patch under alert with a latched port. -/
def latchedOn (q : Patch) (p : Port) (s : State) : State :=
  withLive (fun l => l.setOvr q { look l.ovr q with latch := some p }) (alerted q s)

/-- The state in which an order of kind 40h for port 2 is due. -/
def maydayOrder (s : State) : State := holding 0x40 [BitVec.ofNat 8 (2 : Port).val] s

/-- The guest premises of a state that has the plan of `listening`, from its other laws. -/
theorem guestPremises_of_laws {l : Live} (h1 : FloorLaw l) (h2 : GrantLaw l) (h3 : SwitchLaw l)
    (h4 : PendingLaw listening.cfg l) (h5 : OverrideLaw listening.cfg l) (h6 : ClaimLaw listening.cfg l) :
    GuestPremises listening.cfg l := ⟨plan_listening, settings_listening, h1, h2, h3, h4, h5, h6⟩

/-- P0 has a mayday and the guest resource, and P1 a mayday that waits for it. -/
def queuing : Live := { (maydayOn 1 3 (maydayOn 0 2 talking)).live with guestHolder := some 0, guestQueue := [1] }

/-- P0 has a mayday and the guest resource, which C0 reads. -/
def guesting : Live := (sending (reader .onAir) 16 (maydayOn 0 2 talking)).live

/-- The clauses on guest reading are met: the resource free; held with a patch that waits; held with none that waits;
held by a patch under alert, the consoles DORMANT. -/
theorem witness_guest_reading :
    (GuestPremises listening.cfg talking.live ∧ talking.live.guestHolder = none) ∧
    (GuestPremises listening.cfg queuing ∧ queuing.guestHolder = some 0 ∧ queuing.guestQueue = 1 :: []) ∧
    (GuestPremises listening.cfg guesting ∧ guesting.guestHolder = some 0 ∧ guesting.guestQueue = [] ∧
      reads guesting 16 0 = true) ∧
    (GuestPremises listening.cfg (alerted 0 (maydayOn 0 2 talking)).live ∧
      (alerted 0 (maydayOn 0 2 talking)).live.guestHolder = some 0 ∧
      (look (alerted 0 (maydayOn 0 2 talking)).live.tx 16).state = .dormant) := by
  refine ⟨⟨guestPremises_of_laws ?_ ?_ ?_ ?_ ?_ ?_, by decide⟩, ⟨guestPremises_of_laws ?_ ?_ ?_ ?_ ?_ ?_, by decide⟩,
    ⟨guestPremises_of_laws ?_ ?_ ?_ ?_ ?_ ?_, by decide⟩, ⟨guestPremises_of_laws ?_ ?_ ?_ ?_ ?_ ?_, by decide⟩⟩
  all_goals first | (unfold FloorLaw; decide) | (unfold GrantLaw; decide) | (unfold SwitchLaw; decide)
                  | (unfold PendingLaw; decide) | (unfold OverrideLaw; decide) | (unfold ClaimLaw; decide)

theorem switch_talking : SwitchLaw talking.live := by unfold SwitchLaw; decide

/-- A mayday may begin on a patch that is freezing: the clause on the floor after the abort is met. -/
theorem witness_mayday_on_freezing :
    SwitchLaw (switching 8 talking).live ∧ TalksIn talking.cfg (switching 8 talking).live 2 0 ∧
      (look (switching 8 talking).live.ovr 0).mayday = none ∧ (look (switching 8 talking).live.fla 0).freezing = true ∧
      (ctxOf (switching 8 talking).live 0).restriction = none := by
  refine ⟨by unfold SwitchLaw; decide, ?_⟩
  decide

/-- RP2 holds the floor of P0, which RP9 and C0 read. -/
def heard : State := sharing (sending (reader .onAir) 9 talking)

/-- `heard`, but RP2 has TALK alone in P0. -/
def heardTalkOnly : State :=
  withPatch 0 (patchOf .single [member 2 false true 6, member 9 true true 6, member 16 true true 0]) heard

/-- The clauses on the ports as a mayday of RP9 begins are met: RP2, DORMANT, loses its place and is a LISTEN member, or
is not; RP9 goes on; RP9 in RX_LOCKOUT with its COR ignored, and not. -/
theorem witness_mayday_ports :
    (GuestPremises heard.cfg heard.live ∧ Following heard.cfg heard.live ∧ TalksIn heard.cfg heard.live 9 0 ∧
      heard.live.switch.state = .none ∧ maydayBase heard.cfg 0 heard.live = heard.live ∧
      (ctxOf heard.live 0).floor = [2] ∧
      (ctxOf (after (.declareMayday [9]) (holding 0x40 [9] heard)).live 0).floor = [] ∧
      (look heard.live.tx 2).state = .dormant ∧ listenMember heard.cfg heard.live 0 2 = true) ∧
    (GuestPremises heardTalkOnly.cfg heardTalkOnly.live ∧ Following heardTalkOnly.cfg heardTalkOnly.live ∧
      (memberIn heardTalkOnly.cfg heardTalkOnly.live 0 2).isSome = true ∧
      listenMember heardTalkOnly.cfg heardTalkOnly.live 0 2 = false ∧
      (ctxOf (after (.declareMayday [9]) (holding 0x40 [9] heardTalkOnly)).live 0).floor = []) ∧
    (let s := receiving .lockout 9 heard;
      GuestPremises s.cfg s.live ∧ (look s.live.rx 9).rx = .lockout ∧ Ignored s.cfg s.live 9 ∧
        Ignored s.cfg (after (.declareMayday [9]) (holding 0x40 [9] s)).live 9) ∧
    (let s := receiving .lockout 9 (floorOf 0 [16] (receiving .active 16 planned));
      GuestPremises s.cfg s.live ∧ ¬ Ignored s.cfg s.live 9 ∧
        Ignored s.cfg (after (.declareMayday [9]) (holding 0x40 [9] s)).live 9) ∧
    (let s := receiving .lockout 9 planned;
      GuestPremises s.cfg s.live ∧ TalksIn s.cfg s.live 9 0 ∧
        ¬ Ignored s.cfg (after (.declareMayday [9]) (holding 0x40 [9] s)).live 9) := by
  refine ⟨⟨guestPremises_of_laws ?_ ?_ ?_ ?_ ?_ ?_, by decide⟩,
    ⟨⟨planLaw_of_checks (by decide) (by decide),
      settingsLaw_of_checks (by decide) (by decide) (by decide) (by decide), ?_, ?_, ?_, ?_, ?_, ?_⟩, by decide⟩,
    ⟨guestPremises_of_laws ?_ ?_ ?_ ?_ ?_ ?_, by decide⟩, ⟨guestPremises_of_laws ?_ ?_ ?_ ?_ ?_ ?_, by decide⟩,
    ⟨guestPremises_of_laws ?_ ?_ ?_ ?_ ?_ ?_, by decide⟩⟩
  all_goals first | (unfold FloorLaw; decide) | (unfold GrantLaw; decide) | (unfold SwitchLaw; decide)
                  | (unfold PendingLaw; decide) | (unfold OverrideLaw; decide) | (unfold ClaimLaw; decide)

theorem witness_DeclareMaydayBeginsLatchesOrRefuses :
    Holds (maydayOrder talking) 0x40 [BitVec.ofNat 8 (2 : Port).val] ∧
    (∀ q : Patch, ¬ TalksIn talking.cfg talking.live 17 q) ∧
    (TalksIn talking.cfg (maydayOn 0 2 talking).live 2 0 ∧ (look (maydayOn 0 2 talking).live.ovr 0).mayday ≠ none) ∧
    (TalksIn talking.cfg (latchedOn 0 9 talking).live 2 0 ∧ (ctxOf (latchedOn 0 9 talking).live 0).source = .alert ∧
      (look (latchedOn 0 9 talking).live.ovr 0).latch ≠ none) ∧
    (TalksIn talking.cfg (alerted 0 talking).live 2 0 ∧ (look (alerted 0 talking).live.ovr 0).mayday = none ∧
      (ctxOf (alerted 0 talking).live 0).source = .alert ∧ (look (alerted 0 talking).live.ovr 0).latch = none) ∧
    (SwitchLaw talking.live ∧ TalksIn talking.cfg talking.live 2 0 ∧ (look talking.live.ovr 0).mayday = none ∧
      (ctxOf talking.live 0).source = .receive) ∧
    (17 < (18 : Byte).toNat ∧ Holds (holding 0x40 [18] talking) 0x40 [18]) :=
  ⟨by decide, by decide, by decide, by decide, by decide, ⟨switch_talking, by decide⟩, by decide⟩

theorem switch_emergency : SwitchLaw (catchUp (emgDue true 9 talking)).live := by unfold SwitchLaw; decide

theorem witness_EmergencyRiseIsAnEmergencyEvent :
    (∀ q : Patch, ¬ TalksIn talking.cfg (catchUp (emgDue true 5 talking)).live 5 q) ∧
    (look (emgDue true 9 (maydayOn 0 2 talking)).live.rx 9).emg.due = some true ∧
    (TalksIn talking.cfg (catchUp (emgDue true 9 (maydayOn 0 2 talking))).live 9 0 ∧
      (look (maydayOn 0 2 talking).live.ovr 0).mayday ≠ none) ∧
    ((look (emgDue true 9 (alerted 0 talking)).live.rx 9).emg.due = some true ∧
      TalksIn talking.cfg (catchUp (emgDue true 9 (alerted 0 talking))).live 9 0 ∧
      (look (alerted 0 talking).live.ovr 0).mayday = none ∧ (ctxOf (alerted 0 talking).live 0).source = .alert ∧
      (look (alerted 0 talking).live.ovr 0).latch = none) ∧
    ((look (emgDue true 9 talking).live.rx 9).emg.due = some true ∧
      SwitchLaw (catchUp (emgDue true 9 talking)).live ∧
      TalksIn talking.cfg (catchUp (emgDue true 9 talking)).live 9 0 ∧ (look talking.live.ovr 0).mayday = none ∧
      (ctxOf talking.live 0).source = .receive) :=
  ⟨by decide, by decide, by decide, by decide, by decide, switch_emergency, by decide⟩

theorem switch_mayday : SwitchLaw (catchUp (maydayOn 0 2 talking)).live := by unfold SwitchLaw; decide

theorem witness_ClearMaydayEndsTheMayday :
    Holds (holding 0x41 [BitVec.ofNat 8 (0 : Patch).val] talking) 0x41 [BitVec.ofNat 8 (0 : Patch).val] ∧
    (ctxOf (catchUp (alerted 0 talking)).live 0).source = .alert ∧
    ((ctxOf (catchUp talking).live 0).source = .receive ∧ (look (catchUp talking).live.ovr 0).mayday = none) ∧
    (SwitchLaw (catchUp (maydayOn 0 2 talking)).live ∧ (ctxOf (catchUp (maydayOn 0 2 talking)).live 0).source = .receive ∧
      (look (catchUp (maydayOn 0 2 talking)).live.ovr 0).mayday = some 2) ∧
    (7 < (8 : Byte).toNat ∧ Holds (holding 0x41 [8] talking) 0x41 [8]) :=
  ⟨by decide, by decide, by decide, ⟨switch_mayday, by decide⟩, by decide⟩

/-- P0 has a mayday and the guest resource; both consoles read its ring. -/
def guestsFollowing : State := sending (reader .onAir) 17 (maydayOn 0 2 heard)

/-- The clauses on the ports as a mayday ends are met: a radio port that reads the ring; C0, which is a LISTEN member of
P0, with a writer active after it; C1, which is a member of no patch, reading and DORMANT. -/
theorem witness_ports_after_mayday :
    (let l := guestsFollowing.live;
      let t := (after (.clearMayday [0]) (holding 0x41 [0] guestsFollowing)).live;
      GuestPremises guestsFollowing.cfg l ∧ PortLaw l ∧ Following guestsFollowing.cfg l ∧ l.switch.state = .none ∧
        (look l.ovr 0).mayday = some 2 ∧ l.guestHolder = some 0 ∧ l.guestQueue = [] ∧ reads l 16 0 = true ∧
        reads l 17 0 = true ∧ (look t.tx 16).state = .keying ∧
        (listenMember guestsFollowing.cfg t 0 16 = true ∧ (ctxOf t 0).source = .receive ∧ (ctxOf t 0).floor = [2]) ∧
        ∀ r : Patch, listenMember guestsFollowing.cfg t r 17 = false) ∧
    GuestPremises listening.cfg guesting ∧ PortLaw guesting ∧ guesting.guestHolder = some 0 ∧ guesting.guestQueue = [] ∧
    (look guesting.tx 17).state = .dormant := by
  refine ⟨⟨guestPremises_of_laws ?_ ?_ ?_ ?_ ?_ ?_, ?_, by decide⟩, guestPremises_of_laws ?_ ?_ ?_ ?_ ?_ ?_, ?_, by decide⟩
  all_goals first | (unfold FloorLaw; decide) | (unfold GrantLaw; decide) | (unfold SwitchLaw; decide)
                  | (unfold PendingLaw; decide) | (unfold OverrideLaw; decide) | (unfold ClaimLaw; decide)
                  | (unfold PortLaw; decide)

/-- P2 mixes RP5 to RP8, RP10 and RP11. -/
def crowdedPlan : State := withPatch 2
  (patchOf .mix [member 5 true true 1, member 6 true true 1, member 7 true true 1, member 8 true true 1,
    member 10 true true 2, member 11 true true 3]) State.reset

/-- P2 has a mayday of RP11, which does not claim; RP5 to RP8 and RP10 wait, none of them eligible. -/
def crowdedMayday : State :=
  withLive (fun l =>
    { ((l.setOvr 2 { look l.ovr 2 with
          save1 := some { mode := .mix, floor := [], restriction := none, source := .receive }, mayday := some 11 }).setCtx 2
        { mode := .single, floor := [], restriction := some 11, source := .receive }).setLamp 11 true with
      guestHolder := some 2 })
    (withLive (fun l => l.setClaimants 2 [5, 6, 7, 8, 10])
      ([5, 6, 7, 8, 10].foldl (fun s p => receiving .active p s) crowdedPlan))

/-- The clauses on the floor after a mayday are met: a saved mode SINGLE; a saved mode MIX, with a claimant, RP10, that
the keying after the restore releases. -/
theorem witness_floor_after_mayday :
    (look (maydayOn 0 2 talking).live.ovr 0).save1 =
      some { mode := .single, floor := [2], restriction := none, source := .receive } ∧
    GuestPremises crowdedMayday.cfg crowdedMayday.live ∧ Following crowdedMayday.cfg crowdedMayday.live ∧
    (look crowdedMayday.live.ovr 2).save1 =
      some { mode := .mix, floor := [], restriction := none, source := .receive } ∧
    claimantsOf (after (.clearMayday [2]) (holding 0x41 [2] crowdedMayday)).live 2 = [5, 6, 7, 8] ∧
    claimantsOf crowdedMayday.live 2 = [5, 6, 7, 8, 10] := by
  refine ⟨by decide, ⟨planLaw_of_checks (by decide) (by decide),
    settingsLaw_of_checks (by decide) (by decide) (by decide) (by decide), ?_, ?_, ?_, ?_, ?_, ?_⟩, by decide, by decide,
    by decide, by decide⟩
  all_goals first | (unfold FloorLaw; decide) | (unfold GrantLaw; decide) | (unfold SwitchLaw; decide)
                  | (unfold PendingLaw; decide) | (unfold OverrideLaw; decide) | (unfold ClaimLaw; decide)

/-- P2 mixes RP5 to RP8 and RP10 to RP12, of which RP8 and RP11 are FULL with RXLO off. It has a mayday of RP12, which does
not claim; the others wait, RP11 having talked before; RP11 reads the ring in HANG. -/
def displacing : State :=
  let plan := withPatch 2 (patchOf .mix [member 5 true true 1, member 6 true true 1, member 7 true true 1,
    member 8 true true 1, member 10 true true 2, member 11 true true 3, member 12 true true 3]) State.reset
  let open' := { plan with cfg := { plan.cfg with ports := put (put plan.cfg.ports 8 openRecord) 11 openRecord } }
  let s := [5, 6, 7, 8, 10, 11].foldl (fun s p => receiving .active p s) open'
  withLive (fun l =>
    let l := l.setTx 11 { TxPort.dormant with
      state := .hang, reader := some { ring := 2, cursor := 0, endMark := none }, hang := some 4 }
    let l := l.setOvr 2 { look l.ovr 2 with
      save1 := some { mode := .mix, floor := [11], restriction := none, source := .receive }, mayday := some 12 }
    let l := (l.setClaimants 2 [5, 6, 7, 8, 10, 11]).setLamp 12 true
    { l.setCtx 2 { mode := .single, floor := [], restriction := some 12, source := .receive } with
      guestHolder := some 2 }) s

/-- The consoles read ring 2 as guests. -/
def displacingFollowed : State :=
  let guest : TxPort := { TxPort.dormant with
    state := .onAir, reader := some { ring := 2, cursor := 0, endMark := none } }
  sending guest 17 (sending guest 16 displacing)

/-- The clause on a displaced reader after a mayday is met: the rebuilt floor grants RP11 its place, RP10 keys and releases
its claim, and the selection made again gives RP11's place to RP8. -/
theorem witness_displaced_after_mayday :
    (GuestPremises displacingFollowed.cfg displacingFollowed.live ∧ PortLaw displacingFollowed.live) ∧
    (let l := displacingFollowed.live;
      let t := (after (.clearMayday [2]) (holding 0x41 [2] displacingFollowed)).live;
      Following displacingFollowed.cfg l ∧ (look l.ovr 2).mayday = some 12 ∧
        rebuiltFloor displacingFollowed.cfg l 2 .mix [11] = [5, 6, 7, 11] ∧ (ctxOf t 2).floor = [5, 6, 7, 8] ∧
        reads l 11 2 = true ∧ (look t.tx 11).state = .keying) := by
  refine ⟨⟨⟨planLaw_of_checks (by decide) (by decide),
    settingsLaw_of_checks (by decide) (by decide) (by decide) (by decide), ?_, ?_, ?_, ?_, ?_, ?_⟩, ?_⟩, by decide⟩
  all_goals first | (unfold FloorLaw; decide) | (unfold GrantLaw; decide) | (unfold SwitchLaw; decide)
                  | (unfold PendingLaw; decide) | (unfold OverrideLaw; decide) | (unfold ClaimLaw; decide)
                  | (unfold PortLaw; decide)

/-- P0 is under alert, which RP2, a claimant, and RP9 read. -/
def alertedFollowed : State := sending (reader .onAir) 2 (sending (reader .onAir) 9 (alerted 0 talking))

/-- The clauses on the floor after an alert are met. -/
theorem witness_floor_after_alert :
    GuestPremises listening.cfg alertedFollowed.live ∧ Following listening.cfg alertedFollowed.live ∧
    (look alertedFollowed.live.ovr 0).save2 =
      some { mode := .single, floor := [2], restriction := none, source := .receive } ∧
    (ctxOf alertedFollowed.live 0).source = .alert ∧ (look alertedFollowed.live.ovr 0).latch = none ∧
    alertedFollowed.live.switch.state = .none ∧
    (look (latchedOn 0 9 talking).live.ovr 0).latch = some 9 := by
  refine ⟨guestPremises_of_laws ?_ ?_ ?_ ?_ ?_ ?_, by decide⟩
  all_goals first | (unfold FloorLaw; decide) | (unfold GrantLaw; decide) | (unfold SwitchLaw; decide)
                  | (unfold PendingLaw; decide) | (unfold OverrideLaw; decide) | (unfold ClaimLaw; decide)

theorem witness_SoundAlertBeginsAlerts :
    (601 < 65536 ∧ Holds (holding 0x42 ((1 : Byte) :: twoBytes 601) talking) 0x42 ((1 : Byte) :: twoBytes 601)) ∧
    ((0x80 : Byte).getLsbD (7 : Patch).val = true ∧ (activeRecord talking.cfg (catchUp talking).live 7).valid = false) ∧
    (SwitchLaw talking.live ∧
      ∀ q : Patch, (1 : Byte).getLsbD q.val = true → (activeRecord talking.cfg talking.live q).valid = true) :=
  ⟨by decide, by decide, switch_talking, by decide⟩

/-- The settings of `talking`, but RP9 has TALK alone in P0. -/
def talkOnlyPlan : State := withPatch 0 (patchOf .single [member 2 true true 6, member 9 false true 6, member 16 true true 0])
  planned

/-- RP2 holds the floor of P0, which C0 reads; RP9 waits, a DORMANT member without LISTEN. -/
def talkOnly : State :=
  withLive (fun l => l.setClaimants 0 [2, 9])
    (receiving .active 9 (sharing { talking with cfg := talkOnlyPlan.cfg }))

/-- A switch that involves P0 and P1, whose two records differ, is pending; RP3 and RP4 talk in P1, which mixes. -/
def bothFrozen : State :=
  withLive (fun l =>
    { (l.setFreezing 0 true).setFreezing 1 true with
      switch := { l.switch with state := .pending, involved := [0, 1], grace := some 8 } }) (mixing [3, 4])

/-- The clauses on the readers and the save of an alert are met: a DORMANT member with TALK alone whose claim is released;
a patch that mixes and is freezing; a member and a console among the readers after it. -/
theorem witness_alert_readers :
    (GuestPremises talkOnly.cfg talkOnly.live ∧ Following talkOnly.cfg talkOnly.live ∧
      (memberIn talkOnly.cfg talkOnly.live 0 9).isSome = true ∧ (look talkOnly.live.tx 9).state = .dormant ∧
      Ignored talkOnly.cfg (after (.soundAlert [1, 0, 10]) (holding 0x42 [1, 0, 10] talkOnly)).live 9 ∧
      9 ∈ claimantsOf talkOnly.live 0) ∧
    (GuestPremises bothFrozen.cfg bothFrozen.live ∧ Following bothFrozen.cfg bothFrozen.live ∧
      (ctxOf bothFrozen.live 1).mode = .mix ∧ (look bothFrozen.live.fla 1).freezing = true) ∧
    (let t := (after (.soundAlert [1, 0, 10]) (holding 0x42 [1, 0, 10] talkOnly)).live;
      reads t 9 0 = true ∧ reads t 16 0 = true) := by
  refine ⟨⟨⟨planLaw_of_checks (by decide) (by decide),
      settingsLaw_of_checks (by decide) (by decide) (by decide) (by decide), ?_, ?_, ?_, ?_, ?_, ?_⟩, by decide⟩,
    ⟨guestPremises_of_laws ?_ ?_ ?_ ?_ ?_ ?_, by decide⟩, by decide⟩
  all_goals first | (unfold FloorLaw; decide) | (unfold GrantLaw; decide) | (unfold SwitchLaw; decide)
                  | (unfold PendingLaw; decide) | (unfold OverrideLaw; decide) | (unfold ClaimLaw; decide)

theorem switch_alert : SwitchLaw (catchUp (holding 0x43 [1] (alerted 0 talking))).live := by unfold SwitchLaw; decide

theorem switch_alert_timer : SwitchLaw (catchUp (alerted 0 talking)).live := by unfold SwitchLaw; decide

theorem witness_CancelAndTimerEndAlerts :
    (SwitchLaw (catchUp (holding 0x43 [1] (alerted 0 talking))).live ∧
      Holds (holding 0x43 [1] (alerted 0 talking)) 0x43 [1] ∧ (1 : Byte).getLsbD (0 : Patch).val = true ∧
      (ctxOf (alerted 0 talking).live 0).source = .alert) ∧
    (SwitchLaw (catchUp (alerted 0 talking)).live ∧ (ctxOf (alerted 0 talking).live 0).source = .alert ∧
      (look (alerted 0 talking).live.ovr 0).timer = .running 0) ∧
    ((look (alerted 0 talking).live.ovr 0).latch = none ∧
      (look (alerted 0 talking).live.ovr 0).save2 =
        some { mode := .single, floor := [2], restriction := none, source := .receive } ∧
      2 ∈ claimantsOf (alerted 0 talking).live 0) :=
  ⟨⟨switch_alert, by decide⟩, ⟨switch_alert_timer, by decide⟩, by decide⟩

/-! ### Tone and cadence -/

/-- The body of a LOAD TONE of one sample. -/
def toneBody (start : Nat) : List Byte :=
  twoBytes start ++ ([5] : List Sample).flatMap (fun v => [v.extractLsb' 8 8, v.extractLsb' 0 8])

theorem witness_LoadToneWritesTheSamples :
    (1023 < 65536 ∧ 1 ≤ ([5] : List Sample).length ∧ ([5] : List Sample).length ≤ 28 ∧
      Memory.wf (holding 0x48 (toneBody 1023) talking).cfg.tone = true ∧
      Holds (holding 0x48 (toneBody 1023) talking) 0x48 (toneBody 1023) ∧ 1023 < 1024) ∧
    (1024 < 65536 ∧ Holds (holding 0x48 (toneBody 1024) talking) 0x48 (toneBody 1024) ∧ 1024 ≤ 1024) := by
  and_intros <;> decide

/-- The body of a SET CADENCE with on and off times of 1 ms. -/
def cadenceBody (loop : Nat) : List Byte := twoBytes loop ++ twoBytes 1 ++ twoBytes 1 ++ [64, 64]

/-- The cadence generator in a phase with its count run out. -/
def cadenceAt (ph : CadencePhase) : State :=
  withLive (fun l => { l with gen := { phase := ph, count := 0, pointer := 0 } }) State.reset

theorem witness_CadenceSettingsAndCountEnds :
    Holds (holding 0x49 (cadenceBody 0) talking) 0x49 (cadenceBody 0) ∧
    Holds (holding 0x49 (cadenceBody 1025) talking) 0x49 (cadenceBody 1025) ∧
    Holds (holding 0x49 (cadenceBody 1024) talking) 0x49 (cadenceBody 1024) ∧
    Holds (holding 0x49 (cadenceBody 1) talking) 0x49 (cadenceBody 1) ∧
    ((cadenceAt .on).live.gen.phase = .on ∧ (cadenceAt .on).live.gen.count = 0) ∧
    ((cadenceAt .off).live.gen.phase = .off ∧ (cadenceAt .off).live.gen.count = 0) := by decide

/-! ### Signalling and timers -/

/-- RP9 reads ring 0 ON_AIR, with the port settings as given, and a settlement of its COR waits. -/
def ignoring (r : PortRec) (v : Bool) : State :=
  corDue v 9 (sending (reader .onAir) 9 { talking with cfg := { talking.cfg with ports := put talking.cfg.ports 9 r } })

theorem witness_SettledSignallingDrivesTheReceiver :
    (let s := ignoring { openRecord with rxlo := true } true;
      (look (catchUp s).live.rx 9).cor.due = some true ∧ Ignored s.cfg (catchUp s).live 9 ∧
        (look s.cfg.ports 9).duplex = .full) ∧
    (let s := ignoring (PortRec.powerOn 9) true;
      Ignored s.cfg (catchUp s).live 9 ∧ (look s.cfg.ports 9).duplex = .half) ∧
    (let s := corDue true 9 talking;
      (look (catchUp s).live.rx 9).cor.due = some true ∧ ¬ Ignored s.cfg (catchUp s).live 9 ∧
        (look (catchUp s).live.rx 9).rx = .quiet) ∧
    (let s := corDue true 2 talking;
      ¬ Ignored s.cfg (catchUp s).live 2 ∧ (look (catchUp s).live.rx 2).rx ≠ .quiet) ∧
    (let s := ignoring (PortRec.powerOn 9) false;
      (look (catchUp s).live.rx 9).cor.due = some false ∧ Ignored s.cfg (catchUp s).live 9) ∧
    (let s := corDue false 9 talking;
      ¬ Ignored s.cfg (catchUp s).live 9 ∧ (look (catchUp s).live.rx 9).rx = .quiet) ∧
    (let s := corDue false 2 talking;
      ¬ Ignored s.cfg (catchUp s).live 2 ∧ (look (catchUp s).live.rx 2).rx = .active) ∧
    (let s := corDue false 9 (receiving .lockout 9 talking);
      ¬ Ignored s.cfg (catchUp s).live 9 ∧ (look (catchUp s).live.rx 9).rx = .lockout) ∧
    (look (catchUp (emgDue false 9 talking)).live.rx 9).emg.due = some false := by
  and_intros <;> decide

theorem witness_PortTimersExpire :
    (let s := withLive (fun l => l.setRx 2 { look l.rx 2 with talk := some 0 }) talking;
      (look s.live.rx 2).rx = .active ∧ (look s.live.rx 2).talk = some 0) ∧
    (let s := sending { reader .keying with keyUp := some 0 } 9 talking;
      (look s.live.tx 9).state = .keying ∧ (look s.live.tx 9).keyUp = some 0) ∧
    (let s := sending { reader .onAir with hangDue := true } 9 talking;
      (look s.live.tx 9).state = .onAir ∧ (look s.live.tx 9).hangDue = true) ∧
    (let s := sending { reader .hang with hang := some 0 } 9 talking;
      (look s.live.tx 9).state = .hang ∧ (look s.live.tx 9).hang = some 0) ∧
    (let s := sending { reader .keying with confirm := some 0 } 9 talking;
      (look s.live.tx 9).state = .keying ∧ (look s.live.tx 9).confirm = some 0) ∧
    (let s := sending { reader .onAir with confirm := some 0 } 9 talking;
      (look s.live.tx 9).state = .onAir ∧ (look s.live.tx 9).confirm = some 0) ∧
    (let s := sending { reader .hang with confirm := some 0 } 9 talking;
      (look s.live.tx 9).state = .hang ∧ (look s.live.tx 9).confirm = some 0) := by
  and_intros <;> decide

theorem witness_PortEventsKeepTheRest :
    listening.live.switch.state = .none ∧ (3 : Port) ≠ 2 ∧ listening.live.raised = [] ∧ (26 : Source) ≠ portSource 2 ∧
    (PlanLaw listening.cfg ∧ ClaimLaw listening.cfg listening.live ∧
      ∀ r : Port, syncPort (sharing listening).cfg (catchUp (sharing listening)).live r = (catchUp (sharing listening)).live) ∧
    portPatch listening.cfg listening.live 2 = some 0 ∧ memberIn listening.cfg listening.live 0 3 = none := by
  refine ⟨by decide, by decide, by decide, by decide, ⟨plan_listening, claim_listening, ?_⟩, by decide, by decide⟩
  decide

/-! ### Floors, keying and rings -/

/-- P0 with RP9 on the floor under a mayday of `mp`. -/
def restricted (mp : Port) (floor : List Port) : State :=
  withLive (fun l => l.setCtx 0 { ctxOf l 0 with restriction := some mp, floor := floor }) talking

theorem witness_SingleFloorFollowsClaimsAndReleases :
    TalksIn planned.cfg planned.live 2 0 ∧ (ctxOf planned.live 0).mode = .single ∧
    ¬ Granting (switching 8 planned).live 0 ∧ ¬ Granting (alerted 0 planned).live 0 ∧
    (Granting planned.live 0 ∧ (ctxOf planned.live 0).restriction = none ∧ (ctxOf planned.live 0).floor = []) ∧
    (Granting talking.live 0 ∧ (ctxOf talking.live 0).floor = 2 :: [] ∧
      rankIn talking.cfg talking.live 0 16 < rankIn talking.cfg talking.live 0 2) ∧
    (Granting (restricted 9 [2]).live 0 ∧ (ctxOf (restricted 9 [2]).live 0).restriction = some 9) ∧
    ((9 : Port) ≠ 2 ∧ ¬ AllowedUnder talking.cfg (restricted 2 [2]).live 0 2 9) ∧
    ((16 : Port) ≠ 9 ∧ AllowedUnder talking.cfg (restricted 9 [2]).live 0 9 16 ∧
      (ctxOf (restricted 9 [2]).live 0).floor = 2 :: []) ∧
    ((16 : Port) ≠ 9 ∧ AllowedUnder talking.cfg (restricted 9 []).live 0 9 16 ∧
      (ctxOf (restricted 9 []).live 0).floor = []) ∧
    ((2 : Port) ∈ claimantsOf talking.live 0 ∧ (∀ r : Patch, r ≠ 0 → (2 : Port) ∉ claimantsOf talking.live r) ∧
      (ctxOf talking.live 0).floor = [2]) ∧
    ((9 : Port) ∉ (ctxOf talking.live 0).floor ∧ ¬ Granting (switching 8 talking).live 0 ∧
      (ctxOf (switching 8 talking).live 0).floor = [2]) ∧
    ((ctxOf (restricted 2 [2]).live 0).restriction = some 2 ∧ (ctxOf (restricted 2 [2]).live 0).floor = [2]) ∧
    (portPatch talking.cfg talking.live 2 = some 0 ∧ 2 ∈ claimantsOf (restricted 9 []).live 0 ∧
      2 ∉ (ctxOf (restricted 9 []).live 0).floor) ∧
    (∀ q, portPatch talking.cfg talking.live 2 = some q → (ctxOf talking.live q).restriction = none) := by
  and_intros <;> decide

theorem plan_mixing : PlanLaw (mixing [3]).cfg := plan_listening

theorem settings_mixing : SettingsLaw (mixing [3]).cfg := settings_listening

theorem claim_mixing : ClaimLaw (mixing [3]).cfg (mixing [3]).live := by unfold ClaimLaw; decide

theorem witness_MixFloorIsTheFourLowest :
    (∃ p ∈ candidates talking.cfg (floorOf 1 [3] planned).live 1, p ∉ ([] : List Port)) ∧
    (PlanLaw (mixing [3]).cfg ∧ SettingsLaw (mixing [3]).cfg ∧ ClaimLaw (mixing [3]).cfg (mixing [3]).live) ∧
    (TalksIn (mixing [3]).cfg (mixing [3]).live 4 1 ∧ (ctxOf (mixing [3]).live 1).mode = .mix ∧
      3 ∈ claimantsOf (mixing [3]).live 1 ∧ Granting (mixing [3]).live 1) ∧
    ¬ Granting (withLive (fun l => l.setFreezing 1 true) (mixing [3])).live 1 :=
  ⟨by decide, ⟨plan_mixing, settings_mixing, claim_mixing⟩, by decide, by decide⟩

theorem witness_RestoredFloorsKeepTheirHolders :
    2 ∈ claimantsOf talking.live 0 ∧ (∀ h ∈ ([9] : List Port), h ∉ claimantsOf talking.live 0) ∧
    (([2, 9] : List Port).length ≤ 4 ∧ ([2, 9] : List Port).Nodup) ∧
    (IsSelected talking.cfg talking.live 0 [2] [2] ∧ 2 ∈ claimantsOf talking.live 0) ∧
    (∀ h : Port, IsSelected talking.cfg talking.live 0 [] [h] → h ∉ claimantsOf talking.live 0) ∧
    9 ∉ claimantsOf talking.live 0 ∧ Granting talking.live 0 ∧
    (ctxOf talking.live 0).mode = .single ∧ (ctxOf talking.live 0).restriction = none ∧
    (ctxOf planned.live 0).floor = [] ∧ (ctxOf talking.live 0).floor = [2] := by
  unfold IsSelected
  and_intros <;> decide

theorem witness_KeyingFollowsTheFloors :
    (ctxOf (alerted 0 talking).live 0).source = .alert ∧ (ctxOf talking.live 0).source = .receive ∧
    talking.live.guestHolder = none ∧ (maydayOn 0 2 talking).live.guestHolder ≠ none ∧
    (look (faulty talking).live.tx 9).state = .fault ∧
    ((look planned.live.tx 9).state = .dormant ∧
      ∀ q, entitledRing planned.cfg planned.live 9 = some q → writerActive planned.live q = false) ∧
    ((look talking.live.tx 9).state = .dormant ∧ entitledRing talking.cfg talking.live 9 = some 0 ∧
      writerActive talking.live 0 = true) ∧
    ((look (sending (reader .hang) 9 talking).live.tx 9).reader = some { ring := 0, cursor := 0, endMark := none } ∧
      entitled talking.cfg (sending (reader .hang) 9 talking).live 9 0 = true ∧
      writerActive (sending (reader .hang) 9 talking).live 0 = true) ∧
    (entitled talking.cfg (sending (reader .onAir) 9 talking).live 9 0 = true ∧
      (look (sending (reader .onAir) 9 talking).live.tx 9).state ≠ .hang) ∧
    (entitled talking.cfg (sending (reader .onAir) 3 talking).live 3 0 = false ∧
      (look (sending (reader .onAir) 3 talking).live.tx 3).state = .onAir) ∧
    ((look talking.cfg.ports 9).duplex = .half ∧ (look (receiving .active 9 talking).live.rx 9).rx = .active ∧
      (look talking.live.rx 9).rx ≠ .active) ∧
    ¬ ((look (opened talking).cfg.ports 9).duplex = .half ∨ (look (opened talking).cfg.ports 9).rxlo = true) ∧
    ((look talking.live.tx 16).state = .dormant ∧ 16 ∉ (ctxOf talking.live 0).floor) ∧
    (guesting.guestHolder = some 0 ∧ reads guesting 16 0 = true ∧ reads guesting 17 0 = false) := by
  and_intros <;> decide

/-- The premises of the hand-on of an event in a state with the plan of `listening`. -/
def meetsHandOn (i : Instr) (s : State) : Prop :=
  EventDue s i ∧ s.live.switch.state = .none ∧ PlanLaw s.cfg ∧ SettingsLaw s.cfg ∧
    ClaimLaw s.cfg (catchUp s).live ∧ GrantLaw (catchUp s).live ∧ Following s.cfg (catchUp s).live

/-- RP2's COR has risen; RP9 is in HANG on ring 0, and RP3 in FAULT. -/
def hangingReader : State :=
  corDue true 2 (sending { reader .hang with hang := some 4 } 9 (sending { TxPort.dormant with state := .fault } 3 planned))

/-- RP3, which is no member of P0, reads ring 0 up to its end mark; RP2's talk-time is over. -/
def markedReader : State :=
  withLive (fun l => l.setRx 2 { look l.rx 2 with talk := some 0 })
    (sending { reader .onAir with reader := some { ring := 0, cursor := 0, endMark := some 0 } } 3 (sharing
      (sending (reader .onAir) 9 talking)))

/-- The premises of the hand-on are met by a rise that gives the floor to a patch with a DORMANT listener; by one that
finds a reader in HANG and a port in FAULT; by a fall that gives the floor to a reader; and by the end of a talk-time
beside readers that are and are not entitled. -/
theorem witness_hand_on :
    (meetsHandOn (.corSettledRise 2) (corDue true 2 planned) ∧
      (let u := (catchUp (corDue true 2 planned)).live;
        let t := (after (.corSettledRise 2) (corDue true 2 planned)).live;
        (look u.tx 9).state = .dormant ∧ listenMember planned.cfg u 0 9 = true ∧ u.guestHolder = none ∧
          (ctxOf u 0).source = .receive ∧ (ctxOf t 0).floor = [2])) ∧
    (meetsHandOn (.corSettledRise 2) hangingReader ∧ (look hangingReader.live.tx 3).state = .fault ∧
      (look hangingReader.live.tx 9).state = .hang) ∧
    (meetsHandOn (.corSettledFall 2) waitingReader ∧
      (ctxOf (after (.corSettledFall 2) waitingReader).live 0).floor = [9] ∧ reads waitingReader.live 9 0 = true) ∧
    (meetsHandOn (.talkTimeExpiry 2) markedReader ∧ reads markedReader.live 3 0 = true ∧
      entitled markedReader.cfg markedReader.live 3 0 = false ∧ entitled markedReader.cfg markedReader.live 9 0 = true) := by
  refine ⟨⟨⟨?_, ?_, plan_listening, settings_listening, ?_, ?_, ?_⟩, ?_⟩,
    ⟨⟨?_, ?_, plan_listening, settings_listening, ?_, ?_, ?_⟩, ?_⟩,
    ⟨⟨?_, ?_, plan_listening, settingsLaw_of_checks (by decide) (by decide) (by decide) (by decide), ?_, ?_, ?_⟩, ?_⟩,
    ⟨⟨?_, ?_, plan_listening, settings_listening, ?_, ?_, ?_⟩, ?_⟩⟩
  all_goals first | decide | (unfold EventDue; decide) | (unfold ClaimLaw; decide) | (unfold GrantLaw; decide)

/-- P2 mixes RP5 and RP6; RP7, in FAULT, and RP8 wait. -/
def reselecting : State :=
  sending { TxPort.dormant with state := .fault } 7
    (withLive (fun l => (l.setCtx 2 { mode := .mix, floor := [5, 6], restriction := none, source := .receive }).setClaimants 2
      [5, 6, 7, 8]) ([5, 6, 7, 8].foldl (fun s p => receiving .active p s) crowdedPlan))

/-- The clauses on the hand-on itself are met: a patch whose selection is made again, and none; a port that enters a floor
and reads the ring, with its COR ignored and not. -/
theorem witness_hand_on_rounds :
    (SelectsAgain reselecting.cfg reselecting.live 2 ∧
      ∀ r : Patch, r.val < (2 : Patch).val → ¬ SelectsAgain reselecting.cfg reselecting.live r) ∧
    (∀ q, ¬ SelectsAgain talking.cfg talking.live q) ∧
    (let l := (sending (reader .onAir) 9 talking).live;
      let ctx := { ctxOf l 0 with floor := [9] };
      EntersReading l 0 ctx 9 ∧ ¬ EntersReading l 0 ctx 2 ∧ Ignored talking.cfg l 9 ∧
        ¬ Ignored (opened talking).cfg l 9) := by
  decide

/-- RP9 reads ring 0 with a lag of `n` samples, behind an end mark. -/
def lagging (n : Nat) (endMark : Option Count) : State :=
  sending { reader .onAir with reader := some { ring := 0, cursor := BitVec.ofNat 16 (65536 - n), endMark := endMark } } 9
    talking

theorem witness_RingWorkServesAndAppends :
    (look talking.live.tx 9).state ≠ .onAir ∧
    ((look listening.live.tx 9).state = .onAir ∧
      (look listening.live.tx 9).reader = some { ring := 0, cursor := 0, endMark := none } ∧
      (0 : Count) = (look listening.live.rings 0).head) ∧
    ((look (lagging 1 none).live.tx 9).state = .onAir ∧
      (look (lagging 1 none).live.tx 9).reader = some { ring := 0, cursor := 65535, endMark := none } ∧
      (65535 : Count) ≠ (look (lagging 1 none).live.rings 0).head) ∧
    writerActive planned.live 0 = false ∧
    (writerActive talking.live 0 = true ∧ storeOk 4096 (look talking.live.rings 0).store = true) ∧
    (reads (lagging 4095 none).live 9 0 = true ∧ ((0 : Count) - BitVec.ofNat 16 (65536 - 4095)).toNat ≠ 4096) ∧
    (reads (lagging 4096 none).live 9 0 = true ∧ ((0 : Count) - BitVec.ofNat 16 (65536 - 4096)).toNat = 4096) ∧
    (look (lagging 4096 (some (BitVec.ofNat 16 (65536 - 4096)))).live.tx 9).reader =
      some { ring := 0, cursor := BitVec.ofNat 16 (65536 - 4096), endMark := some (BitVec.ofNat 16 (65536 - 4096)) } := by
  and_intros <;> decide

theorem witness_FrameServesThenAppendsThenAdvances :
    (∀ q : Patch, storeOk 4096 (look (lagging 1 none).live.rings q).store = true) ∧
    (writerActive talking.live 0 = true ∧ writerActive talking.live 1 = false) ∧
    (look (lagging 1 none).live.tx 9).state = .onAir ∧
    ((look (sending { reader .keying with keyUp := some 0 } 9 talking).live.tx 9).state = .keying ∧
      (look (sending { reader .keying with keyUp := some 0 } 9 talking).live.tx 9).keyUp = some 0) ∧
    ((cadenceAt .on).live.gen.phase = .on ∧ (cadenceAt .off).live.gen.phase = .off ∧
      talking.live.gen.phase ≠ .on ∧ talking.live.gen.phase ≠ .off) ∧
    (arrived talking).hwi.ringDue = true ∧ talking.hwi.ringDue = false := by
  and_intros <;> decide

theorem witness_RecordsReadBackAsWritten :
    Carriable openRecord ∧ OverrideCarriable (some { member 5 true true 15 with keyUp := some 65534 }) ∧
    (∀ n : Lane, OverrideCarriable (look record0.lanes n)) ∧ 65535 < 65536 := by decide

/-! ### Laws that every step keeps -/

theorem witness_StepsKeepPlanAndSettings :
    PlanLaw listeningNext.cfg ∧ SettingsLaw listeningNext.cfg ∧ ∃ t, step listeningNext = .next t :=
  ⟨plan_listening, settings_listening, _, rfl⟩

theorem witness_StepsKeepSampleStores :
    MemoryLaw listeningNext.cfg listeningNext.live ∧ ∃ t, step listeningNext = .next t := ⟨memory_listening, _, rfl⟩

theorem witness_StepsKeepPortsFloorsAndReaders :
    PortLaw listeningNext.live ∧ FloorLaw listeningNext.live ∧ GrantLaw listeningNext.live ∧ LagLaw listeningNext.live ∧
      ∃ t, step listeningNext = .next t :=
  ⟨port_listening, floor_listening, grant_listening, lag_listening, _, rfl⟩

theorem witness_StepsKeepSwitchOverridesAndClaims :
    IgnoredLaw listeningNext.cfg listeningNext.live ∧ PlanLaw listeningNext.cfg ∧ SettingsLaw listeningNext.cfg ∧ FloorLaw listeningNext.live ∧
      SwitchLaw listeningNext.live ∧ PendingLaw listeningNext.cfg listeningNext.live ∧
      OverrideLaw listeningNext.cfg listeningNext.live ∧ ClaimLaw listeningNext.cfg listeningNext.live ∧
      ∃ t, step listeningNext = .next t :=
  ⟨ignored_listening, plan_listening, settings_listening, floor_listening, switch_listening, pending_listening,
    override_listening, claim_listening, _, rfl⟩

theorem witness_StepsKeepReportsAndChannel :
    ReportLaw listeningNext.live ∧ ChannelLaw listeningNext.mci ∧ ∃ t, step listeningNext = .next t :=
  ⟨report_listening, channel_listening, _, rfl⟩

end Sys2Proof.Tests
end

/-! SUPPORT. Facts about patch records and the plan: which ports stand in a record, what a written record changes, and
what the checks of R8 ask. -/

namespace Sys2Proof.Patches

open Sys2Proof.Machine Sys2Proof.Safety Sys2Proof.Claims

/-! ### Records -/

theorem toList_eq_map_look (v : Vector (Option MemberRec) 8) : v.toList = allLanes.map (look v) := by
  refine List.ext_getElem (by simp [allLanes]) (fun i hi _ => ?_)
  have h8 : i < 8 := by simpa using hi
  interval_cases i <;> simp [allLanes, look]

/-- What a record holds for a port stands in one of its lanes. -/
theorem laneOf_mem {r : PatchRec} {p : Port} {m : MemberRec} (h : laneOf r p = some m) :
    m.port = p ∧ ∃ n : Lane, look r.lanes n = some m := by
  unfold laneOf at h
  rw [toList_eq_map_look] at h
  obtain ⟨lane, hl, hm⟩ := List.exists_of_findSome?_eq_some h
  obtain ⟨n, -, rfl⟩ := List.mem_map.1 hl
  revert hm
  cases hn : look r.lanes n with
  | none => simp
  | some o =>
    simp only [Option.ite_none_right_eq_some, Option.some.injEq]
    rintro ⟨hp, rfl⟩
    exact ⟨hp, n, hn⟩

/-- A record holds a member record for every port that stands in one of its lanes. -/
theorem laneOf_ne_none {r : PatchRec} {n : Lane} {m : MemberRec} (h : look r.lanes n = some m) :
    laneOf r m.port ≠ none := by
  unfold laneOf
  rw [toList_eq_map_look, Ne, List.findSome?_eq_none_iff]
  intro hall
  have := hall _ (List.mem_map.2 ⟨n, mem_allLanes n, rfl⟩)
  simp [h] at this

theorem stands_iff {r : PatchRec} {p : Port} : stands r p = true ↔ StandsIn r p := by
  unfold stands
  constructor
  · intro h
    obtain ⟨m, hm⟩ := Option.isSome_iff_exists.1 h
    obtain ⟨hp, n, hn⟩ := laneOf_mem hm
    exact ⟨n, m, hn, hp⟩
  · rintro ⟨n, m, hn, rfl⟩
    exact Option.isSome_iff_ne_none.2 (laneOf_ne_none hn)

/-- With no port in two lanes, the lane that names a port is what the record holds for it. -/
theorem laneOf_of_look {r : PatchRec} (h1 : oneLaneEach r) {n : Lane} {m : MemberRec} (h : look r.lanes n = some m) :
    laneOf r m.port = some m := by
  obtain ⟨o, ho⟩ := Option.ne_none_iff_exists'.1 (laneOf_ne_none h)
  obtain ⟨hp, k, hk⟩ := laneOf_mem ho
  obtain rfl := h1 k n o m hk h hp
  rw [ho, ← hk, h]

@[simp] theorem look_cleared (n : Lane) : look PatchRec.cleared.lanes n = none := by simp [PatchRec.cleared]

theorem not_standsIn_cleared (p : Port) : ¬ StandsIn PatchRec.cleared p := by
  rintro ⟨n, m, hm, -⟩
  simp at hm

theorem oneLaneEach_cleared : oneLaneEach PatchRec.cleared := by
  intro n k a b ha
  simp at ha

/-! ### Checks -/

/-- Two entries of a list without repeats meet a test exactly where the count of those that meet it exceeds one. -/
theorem one_lt_countP_iff {α : Type} [DecidableEq α] (f : α → Bool) {xs : List α} (hx : xs.Nodup) :
    1 < xs.countP f ↔ ∃ a ∈ xs, ∃ b ∈ xs, a ≠ b ∧ f a = true ∧ f b = true := by
  rw [List.countP_eq_length_filter, ← List.toFinset_card_of_nodup (hx.filter f), Finset.one_lt_card]
  simp only [List.mem_toFinset, List.mem_filter]
  constructor
  · rintro ⟨a, ⟨ha, fa⟩, b, ⟨hb, fb⟩, hab⟩
    exact ⟨a, ha, b, hb, hab, fa, fb⟩
  · rintro ⟨a, ha, b, hb, hab, fa, fb⟩
    exact ⟨a, ⟨ha, fa⟩, b, ⟨hb, fb⟩, hab⟩

theorem repeatsPort_iff {r : PatchRec} : repeatsPort r = true ↔
    ∃ n k : Lane, n ≠ k ∧ ∃ m ∈ look r.lanes n, ∃ o ∈ look r.lanes k, m.port = o.port := by
  simp only [repeatsPort, List.any_eq_true, mem_allPorts, true_and, decide_eq_true_eq, toList_eq_map_look,
    List.countP_map, one_lt_countP_iff _ (show allLanes.Nodup by decide), mem_allLanes, Function.comp_apply,
    Option.any_eq_true_iff_get]
  constructor
  · rintro ⟨p, n, k, hnk, ⟨hm, em⟩, ho, eo⟩
    exact ⟨n, k, hnk, _, Option.get_mem hm, _, Option.get_mem ho, em.trans eo.symm⟩
  · rintro ⟨n, k, hnk, m, hm, o, ho, e⟩
    rw [Option.mem_def] at hm ho
    exact ⟨m.port, n, k, hnk, by simp [hm], by simp [ho, e]⟩

theorem not_repeatsPort {r : PatchRec} (h : repeatsPort r = false) : oneLaneEach r := by
  intro n k a b ha hb hab
  by_contra hnk
  have : repeatsPort r = true := repeatsPort_iff.2 ⟨n, k, hnk, a, ha, b, hb, hab⟩
  simp [h] at this

theorem elsewhereValid_iff {c : Settings} {b : Bank} {q : Patch} {p : Port} :
    elsewhereValid c b q p = true ↔ ElsewhereValid c b q p := by
  simp [elsewhereValid, ElsewhereValid, stands_iff, and_assoc]

theorem protectedIn_iff {c : Settings} {r : PatchRec} : protectedIn c r = true ↔ HasProtected c r := by
  simp [protectedIn, anyProtected, HasProtected, stands_iff]

theorem defineConflicts_iff {c : Settings} {b : Bank} {q : Patch} {r : PatchRec} :
    defineConflicts c b q r = true ↔
      (∃ n k : Lane, n ≠ k ∧ ∃ m ∈ look r.lanes n, ∃ o ∈ look r.lanes k, m.port = o.port) ∨
        (r.valid = true ∧ ∃ p, StandsIn r p ∧ ElsewhereValid c b q p) := by
  simp [defineConflicts, repeatsPort_iff, stands_iff, elsewhereValid_iff]

theorem memberConflicts_iff {c : Settings} {b : Bank} {q : Patch} {n : Lane} {lane : Option MemberRec} :
    memberConflicts c b q n lane = true ↔
      ∃ m ∈ lane, (∃ k : Lane, k ≠ n ∧ ∃ o ∈ look (bankRecord c b q).lanes k, o.port = m.port) ∨
        ((bankRecord c b q).valid = true ∧ ElsewhereValid c b q m.port) := by
  cases lane with
  | none => simp [memberConflicts]
  | some m => simp [memberConflicts, inOtherLane, elsewhereValid_iff, Option.any_eq_true]

/-! ### A written record -/

theorem bankRecord_setRecord (c : Settings) (b a : Bank) (q x : Patch) (r : PatchRec) :
    bankRecord (c.setRecord b q r) a x = if a = b ∧ x = q then r else bankRecord c a x := by
  unfold bankRecord Settings.setRecord
  by_cases ha : a = b
  · subst ha
    by_cases hx : x = q <;> simp [look_put, hx]
  · simp [look_put, ha]

theorem bankRecord_clearBank (c : Settings) (b a : Bank) (x : Patch) :
    bankRecord (c.clearBank b) a x = if a = b then PatchRec.cleared else bankRecord c a x := by
  unfold bankRecord Settings.clearBank
  by_cases ha : a = b <;> simp [look_put, ha]

end Sys2Proof.Patches

/-! SUPPORT. The laws of the plan and of the settings (R3, R4, R22, R23, R90, R151), order by order. -/

namespace Sys2Proof.PlanLaws

open Sys2Proof.Machine Sys2Proof.Safety Sys2Proof.Claims Sys2Proof.Patches

/-! ### What each law asks of a written part -/

/-- A record's overrides lie in the range of R3. -/
def recordInRange (r : PatchRec) : Prop := ∀ n : Lane, ∀ m, look r.lanes n = some m → memberInRange m = true

/-- The two laws together. -/
def Lawful (c : Settings) : Prop := PlanLaw c ∧ SettingsLaw c

theorem recordInRange_cleared : recordInRange PatchRec.cleared := by
  intro n m h
  simp at h

/-- The laws of plan and settings speak of the banks, the port records, the cadence settings and the masks alone. -/
theorem Lawful.congr {c c' : Settings} (h : Lawful c) (hb : c'.banks = c.banks) (hp : c'.ports = c.ports)
    (hc : c'.cadence = c.cadence) (hm : c'.masks = c.masks) : Lawful c' := by
  unfold Lawful PlanLaw SettingsLaw onePatchEach bankRecord at *
  rw [hb, hp, hc, hm]
  exact h

/-- A record written by an edit keeps the laws if it is lawful itself and, where valid, shares no port with another
valid patch of its bank (R8). -/
theorem Lawful.setRecord {c : Settings} (h : Lawful c) {b : Bank} {q : Patch} {r : PatchRec} (h1 : oneLaneEach r)
    (h2 : recordInRange r) (h3 : r.valid = true → ∀ p, StandsIn r p → ¬ ElsewhereValid c b q p) :
    Lawful (c.setRecord b q r) := by
  obtain ⟨⟨hlanes, hpatches⟩, hrange, hports, hcadence, hmasks⟩ := h
  refine ⟨⟨fun a x => ?_, fun a p x y hx hy sx sy => ?_⟩, fun a x => ?_, hports, hcadence, hmasks⟩
  · rw [bankRecord_setRecord]
    split
    · exact h1
    · exact hlanes a x
  · rw [bankRecord_setRecord] at hx hy sx sy
    rw [stands_iff] at sx sy
    by_contra hxy
    split at hx
    · rename_i ex
      obtain ⟨rfl, rfl⟩ := ex
      rw [if_neg (fun e => hxy e.2.symm)] at hy sy
      rw [if_pos ⟨rfl, rfl⟩] at sx
      exact h3 hx p sx ⟨y, Ne.symm hxy, hy, sy⟩
    · rename_i ex
      rw [if_neg ex] at sx
      split at hy
      · rename_i ey
        obtain ⟨rfl, rfl⟩ := ey
        rw [if_pos ⟨rfl, rfl⟩] at sy
        exact h3 hy p sy ⟨x, hxy, hx, sx⟩
      · rename_i ey
        rw [if_neg ey] at sy
        exact hxy (hpatches a p x y hx hy (stands_iff.2 sx) (stands_iff.2 sy))
  · rw [bankRecord_setRecord]
    split
    · exact h2
    · exact hrange a x

theorem Lawful.clearBank {c : Settings} (h : Lawful c) (b : Bank) : Lawful (c.clearBank b) := by
  obtain ⟨⟨hlanes, hpatches⟩, hrange, hports, hcadence, hmasks⟩ := h
  refine ⟨⟨fun a x => ?_, fun a p x y hx hy sx sy => ?_⟩, fun a x => ?_, hports, hcadence, hmasks⟩
  · rw [bankRecord_clearBank]
    split
    · exact oneLaneEach_cleared
    · exact hlanes a x
  · rw [bankRecord_clearBank] at hx hy sx sy
    split at hx
    · simp [PatchRec.cleared] at hx
    · rename_i ha
      simp only [if_neg ha] at hy sx sy
      exact hpatches a p x y hx hy sx sy
  · rw [bankRecord_clearBank]
    split
    · exact recordInRange_cleared
    · exact hrange a x

/-! ### The orders -/

theorem memberInRange_storeMember (m : MemberRec) : memberInRange (storeMember m).1 = true := by
  unfold storeMember
  split
  · rename_i h; simp [memberInRange, h]
  · rename_i ms h
    split
    · simp [memberInRange]
    · split <;> simp_all [memberInRange]

theorem storeLane_eq (lane : Option MemberRec) : (storeLane lane).1 = lane.map (fun m => (storeMember m).1) := by
  cases lane <;> rfl

theorem recordInRange_storeRecord (r : PatchRec) : recordInRange (storeRecord r).1 := by
  intro n m h
  simp only [storeRecord, look_mapTable, storeLane_eq, Option.map_eq_some_iff] at h
  obtain ⟨o, -, rfl⟩ := h
  exact memberInRange_storeMember o

theorem portInRange_storePort (p : Port) (r : PortRec) : portInRange p (storePort p r) = true := by
  unfold storePort
  split
  · simp [portInRange]
  · rename_i hp
    have hc : clampConfirm r.confirm = 0 ∨ (10 ≤ clampConfirm r.confirm ∧ clampConfirm r.confirm ≤ 2000) := by
      unfold clampConfirm; split
      · exact .inl rfl
      · split <;> omega
    simp only [Bool.not_eq_true] at hp
    simpa [portInRange, hp] using hc

theorem firstRefusal_eq_none_cons {b : Bool} {st : Status} {rest : List (Bool × Status)} :
    firstRefusal ((b, st) :: rest) = none ↔ b = false ∧ firstRefusal rest = none := by
  cases b <;> simp [firstRefusal]

theorem setPort_keeps (body : List Byte) (c : Settings) (l : Live) (h : Lawful c) :
    Lawful (orderSetPort body c l).cfg := by
  unfold orderSetPort
  split
  · exact h
  · split
    · rename_i p r _ _
      obtain ⟨hplan, hlanes, hports, hcadence, hmasks⟩ := h
      refine ⟨hplan, hlanes, fun x => ?_, hcadence, hmasks⟩
      simp only [look_put]
      split
      · rename_i e; rw [e]; exact portInRange_storePort p r
      · exact hports x
    · exact h

theorem definePatch_keeps (body : List Byte) (c : Settings) (l : Live) (h : Lawful c) :
    Lawful (orderDefinePatch body c l).cfg := by
  unfold orderDefinePatch
  split
  · exact h
  · split
    · rename_i sel q carried _ _ _
      dsimp only
      split
      · exact h
      · rename_i hr
        simp only [firstRefusal_eq_none_cons] at hr
        obtain ⟨-, -, -, hno, -⟩ := hr
        refine h.setRecord (not_repeatsPort ?_) (recordInRange_storeRecord carried) (fun hv p hp he => ?_)
        · by_contra hrep
          simp [defineConflicts, hrep] at hno
        · exact Bool.false_ne_true (hno.symm.trans (defineConflicts_iff.2 (.inr ⟨hv, p, hp, he⟩)))
    · exact h

/-- A record with one lane written, where the written lane breaks nothing, has no port in two lanes (R8). -/
theorem oneLaneEach_put {r : PatchRec} (h : oneLaneEach r) (n : Lane) (lane : Option MemberRec)
    (hl : ∀ m ∈ lane, ∀ k : Lane, k ≠ n → ∀ o ∈ look r.lanes k, o.port ≠ m.port) :
    oneLaneEach { r with lanes := put r.lanes n lane } := by
  intro x y a b ha hb hab
  simp only [look_put] at ha hb
  by_cases hx : x = n <;> by_cases hy : y = n
  · rw [hx, hy]
  · rw [if_pos hx] at ha
    rw [if_neg hy] at hb
    exact absurd hab.symm (hl a ha y hy b hb)
  · rw [if_neg hx] at ha
    rw [if_pos hy] at hb
    exact absurd hab (hl b hb x hx a ha)
  · rw [if_neg hx] at ha
    rw [if_neg hy] at hb
    exact h x y a b ha hb hab

theorem setMember_keeps (body : List Byte) (c : Settings) (l : Live) (h : Lawful c) :
    Lawful (orderSetMember body c l).cfg := by
  unfold orderSetMember
  split
  · exact h
  · split
    · rename_i sel q n carried _ _ _ _
      dsimp only
      split
      · exact h
      · rename_i hr
        simp only [firstRefusal_eq_none_cons] at hr
        obtain ⟨-, -, -, hno, -⟩ := hr
        have hfree := fun hc => Bool.false_ne_true (hno.symm.trans (memberConflicts_iff.2 hc))
        refine h.setRecord (oneLaneEach_put (h.1.1 _ q) n _ fun m hm k hk o ho e => ?_) (fun k m hk => ?_)
          (fun hv p hp he => ?_)
        · exact hfree ⟨m, hm, .inl ⟨k, hk, o, ho, e⟩⟩
        · simp only [look_put] at hk
          split at hk
          · rw [storeLane_eq, Option.map_eq_some_iff] at hk
            obtain ⟨o, -, rfl⟩ := hk
            exact memberInRange_storeMember o
          · exact h.2.1 _ q k m hk
        · obtain ⟨k, m, hm, rfl⟩ := hp
          simp only [look_put] at hm
          split at hm
          · exact hfree ⟨m, hm, .inr ⟨hv, he⟩⟩
          · obtain ⟨x, hx, hxv, hxs⟩ := he
            exact hx (h.1.2 _ m.port x q hxv hv (stands_iff.2 hxs) (stands_iff.2 ⟨k, m, hm, rfl⟩))
    · exact h

theorem deletePatch_keeps (body : List Byte) (c : Settings) (l : Live) (h : Lawful c) :
    Lawful (orderDeletePatch body c l).cfg := by
  unfold orderDeletePatch
  split
  · exact h
  · split
    · dsimp only
      split
      · exact h
      · exact h.setRecord oneLaneEach_cleared recordInRange_cleared (fun hv => by simp [PatchRec.cleared] at hv)
    · exact h

theorem clearBank_keeps (body : List Byte) (c : Settings) (l : Live) (h : Lawful c) :
    Lawful (orderClearBank body c l).cfg := by
  unfold orderClearBank
  split
  · exact h
  · split
    · dsimp only
      split
      · exact h
      · exact h.clearBank _
    · exact h

theorem setCadence_keeps (body : List Byte) (c : Settings) (l : Live) (h : Lawful c) :
    Lawful (orderSetCadence body c l).cfg := by
  unfold orderSetCadence
  split
  · exact h
  · split
    · exact h
    · rename_i hl
      obtain ⟨hplan, hlanes, hports, -, hmasks⟩ := h
      refine ⟨hplan, hlanes, hports, ?_, hmasks⟩
      have hloop : wordAt body 0 ≠ 0 ∧ wordAt body 0 ≤ Config.toneSize := by simpa [badLoopLength] using hl
      have hsize : Config.toneSize = 1024 := rfl
      simp [cadenceInRange, storedCadence]
      omega

theorem setReportMask_keeps (body : List Byte) (c : Settings) (l : Live) (h : Lawful c) :
    Lawful (orderSetReportMask body c l).cfg := by
  unfold orderSetReportMask
  split
  · exact h
  · split
    · exact h
    · rename_i src _
      obtain ⟨hplan, hlanes, hports, hcadence, hmasks⟩ := h
      refine ⟨hplan, hlanes, hports, hcadence, fun x => ?_⟩
      simp only [look_put]
      split
      · rename_i e
        rw [e, BitVec.and_assoc, BitVec.and_self]
      · exact hmasks x

theorem flagOperation_keeps (tooHigh : Bool) (f : Port → Bool → Bool) (c : Settings) (l : Live) (keysw : Bool)
    (h : Lawful c) : Lawful (flagOperation tooHigh f c l keysw).cfg := by
  unfold flagOperation
  split
  · exact h
  · exact h.congr (c' := { c with flags := mapTable f c.flags }) rfl rfl rfl rfl

theorem lockOperation_keeps (hard plk : Bool) (c : Settings) (l : Live) (keysw : Bool) (h : Lawful c) :
    Lawful (lockOperation hard plk c l keysw).cfg := by
  unfold lockOperation
  split
  · exact h
  · exact h.congr (c' := { c with plk := plk }) rfl rfl rfl rfl

/-- Every order keeps the laws of plan and settings (R8, R24, R90, R151). -/
theorem OrderOutcome.keeps_lawful {c : Settings} {l : Live} {r : OrderResult} (hr : OrderOutcome c l r)
    (h : Lawful c) : Lawful r.cfg := by
  cases hr with
  | refused st => exact h
  | answered data => exact h
  | setPort body => exact setPort_keeps body c l h
  | clearPort body => unfold orderClearPort; repeat' split
                      all_goals exact h
  | definePatch body => exact definePatch_keeps body c l h
  | setMember body => exact setMember_keeps body c l h
  | deletePatch body => exact deletePatch_keeps body c l h
  | clearBank body => exact clearBank_keeps body c l h
  | switchPlan body => unfold orderSwitchPlan; dsimp only; repeat' split
                       all_goals exact h
  | abortSwitch body => unfold orderAbortSwitch; repeat' split
                        all_goals exact h
  | declareMayday body => unfold orderDeclareMayday; dsimp only; repeat' split
                          all_goals exact h
  | clearMayday body => unfold orderClearMayday; repeat' split
                        all_goals exact h
  | soundAlert body => unfold orderSoundAlert; dsimp only; repeat' split
                       all_goals exact h
  | cancelAlert body => unfold orderCancelAlert; repeat' split
                        all_goals exact h
  | loadTone body => unfold orderLoadTone; repeat' split
                     all_goals exact h.congr rfl rfl rfl rfl
  | setCadence body => exact setCadence_keeps body c l h
  | flags tooHigh f keysw => exact flagOperation_keeps tooHigh f c l keysw h
  | lock hard plk keysw => exact lockOperation_keeps hard plk c l keysw h
  | setReportMask body => exact setReportMask_keeps body c l h
  | clearConditions body => unfold orderClearConditions; repeat' split
                            all_goals exact h

/-! ### Resets and steps -/

@[simp] theorem bankRecord_powerOn (b : Bank) (q : Patch) :
    bankRecord Settings.powerOn b q = PatchRec.cleared := by
  simp [bankRecord, Settings.powerOn, clearedBanks]

theorem portInRange_powerOn (p : Port) : portInRange p (PortRec.powerOn p) = true := by
  unfold PortRec.powerOn
  split <;> simp_all [portInRange]

theorem lawful_powerOn : Lawful Settings.powerOn := by
  unfold Lawful PlanLaw SettingsLaw onePatchEach
  refine ⟨⟨fun b q => ?_, fun b p q r hq => ?_⟩, fun b q => ?_, fun p => ?_, ?_, fun src => ?_⟩
  · rw [bankRecord_powerOn]; exact oneLaneEach_cleared
  · rw [bankRecord_powerOn] at hq
    exact absurd hq (by decide)
  · rw [bankRecord_powerOn]; exact recordInRange_cleared
  · simp only [Settings.powerOn, look_ofFn]
    exact portInRange_powerOn p
  · rfl
  · simp [Settings.powerOn]

/-- RST reset keeps the cadence settings and takes the rest from power-on (R90). -/
theorem Lawful.afterRst {c : Settings} (h : Lawful c) : Lawful c.afterRst :=
  have h0 := lawful_powerOn
  ⟨h0.1, h0.2.1, h0.2.2.1, h.2.2.2.1, h0.2.2.2.2⟩

theorem LiveMove.keeps_lawful {a b : Settings × Live} (hm : LiveMove a b) (h : Lawful a.1) : Lawful b.1 := by
  cases hm with
  | order c l r hr => exact OrderOutcome.keeps_lawful hr h
  | powerOn c l => exact lawful_powerOn
  | rst c l => exact h.afterRst
  | _ => exact h

theorem step_keeps_lawful {s t : State} (h : Lawful s.cfg) (hs : step s = .next t) : Lawful t.cfg := by
  unfold step at hs
  split at hs
  · injection hs with e
    exact e ▸ h
  · exact LiveRun.keeps (P := fun c _ => Lawful c) (fun _ _ => LiveMove.keeps_lawful) (exec_run _ _ _ hs) h

/-- Settles O56: each move of a step keeps the plan and the settings lawful. -/
theorem stepsKeepPlanAndSettings : Obligations.StepsKeepPlanAndSettings :=
  fun _ _ hplan hsettings hs => step_keeps_lawful ⟨hplan, hsettings⟩ hs

end Sys2Proof.PlanLaws

/-! SUPPORT. How an order command carries out the order held (R163): its next state in the words of the statements, and
what the selectors and numbers of a body read as. -/

namespace Sys2Proof.Carrying

open Sys2Proof.Machine Sys2Proof.Safety Sys2Proof.Claims Sys2Proof.Patches

theorem holdsDue_of_holds {s : State} {kind : Byte} {body : List Byte} (h : Holds s kind body) :
    holdsDue s kind body = true := by
  simp [holdsDue, h]

theorem answered_eq (kind : Byte) (r : OrderResult) (s : State) :
    answered kind r s = withReply kind (statusByte r.status) r.data (withCore r.cfg r.live s) := rfl

theorem answered_refuse (kind : Byte) (st : Status) (s : State) :
    answered kind (refuse st s.cfg s.live) s = withReply kind (statusByte st) [] s := rfl

theorem answered_answer (kind : Byte) (data : List Byte) (s : State) :
    answered kind (answer s.cfg s.live data) s = withReply kind 0x00 data s := rfl

/-- An order command that answers a refusal refuses the order: the reply has the status alone and nothing else changes. -/
theorem answers_refusal {i : Instr} {s u : State} {kind : Byte} {r : OrderResult} {c : Settings} (st : Status)
    (h : exec i s = .next (answered kind r u)) (hc : u.cfg = c) (hr : r = refuse st c u.live) :
    Answers i s (withReply kind (statusByte st) [] u) := by
  subst hc
  rw [Answers, h, hr, answered_refuse]

/-- An order command that answers a result leaves its settings and its live state, and replies with its status and data. -/
theorem answers_result {i : Instr} {s u : State} {kind : Byte} {r : OrderResult} {c : Settings} {l : Live} {st : Status}
    {data : List Byte} (h : exec i s = .next (answered kind r u))
    (hr : r = { cfg := c, live := l, status := st, data := data }) :
    Answers i s (withReply kind (statusByte st) data (withCore c l u)) := by
  rw [Answers, h, hr, answered_eq]

theorem carryOut_of_holds {s : State} {kind : Byte} {body : List Byte} (f : Settings → Live → OrderResult)
    (h : Holds s kind body) : carryOut kind body f s = answered kind (f s.cfg (catchUp s).live) (catchUp s) := by
  simp only [carryOut, holdsDue_of_holds h, if_true, catchUp_cfg]

/-- An order that `f` refuses is refused: the reply carries the status alone, and nothing else changes (R164). -/
theorem carryOut_refuses {s : State} {kind : Byte} {body : List Byte} {f : Settings → Live → OrderResult} {st : Status}
    (h : Holds s kind body) (hf : f s.cfg (catchUp s).live = refuse st s.cfg (catchUp s).live) :
    carryOut kind body f s = withReply kind (statusByte st) [] (catchUp s) := by
  rw [carryOut_of_holds f h, hf, ← catchUp_cfg s, answered_refuse]

@[simp] theorem finishRing_cfg (s : State) : (finishRing s).cfg = s.cfg := by
  unfold finishRing
  split
  · simp only [catchUp_cfg]
  · rfl

theorem carryOutAfterRing_of_holds {s : State} {kind : Byte} {body : List Byte} (f : Settings → Live → OrderResult)
    (h : Holds s kind body) : carryOutAfterRing kind body f s =
      answered kind (f s.cfg (catchUp (finishRing s)).live) (catchUp (finishRing s)) := by
  simp only [carryOutAfterRing, holdsDue_of_holds h, if_true, catchUp_cfg, finishRing_cfg]

/-! ### Selectors and numbers -/

theorem eq_zero_or_one {sel : Byte} (h : sel.toNat < 2) : sel = 0 ∨ sel = 1 := by
  rcases Nat.lt_succ_iff_lt_or_eq.1 h with h0 | h1
  · exact .inl (BitVec.eq_of_toNat_eq (by simpa using Nat.lt_one_iff.1 h0))
  · exact .inr (BitVec.eq_of_toNat_eq (by simpa using h1))

/-- The selector that a selector byte of 00h or 01h names (R176). -/
def selOf (sel : Byte) : BankSel := if sel = 0 then .active else .standby

theorem readBank_selOf {sel : Byte} (h : sel.toNat < 2) : readBank sel.toNat = some (selOf sel) := by
  rcases eq_zero_or_one h with rfl | rfl <;> rfl

theorem readBank_bankByte (sel : BankSel) : readBank (bankByte sel).toNat = some sel := by
  cases sel <;> rfl

theorem readBank_none {n : Nat} (h : 1 < n) : readBank n = none := by
  unfold readBank
  rw [if_neg (by omega), if_neg (by omega)]

theorem readPatchNumber_val (q : Patch) : readPatchNumber (BitVec.ofNat 8 q.val).toNat = some q := by
  have hq : (BitVec.ofNat 8 q.val).toNat = q.val := by
    rw [BitVec.toNat_ofNat]
    exact Nat.mod_eq_of_lt (by omega)
  simp [readPatchNumber, hq]

theorem readPatchNumber_none {n : Nat} (h : 7 < n) : readPatchNumber n = none := by
  unfold readPatchNumber
  rw [dif_neg (by omega)]

theorem resolveBank_selOf (l : Live) (sel : Byte) : resolveBank l (selOf sel) = bankOf l sel := by
  unfold selOf bankOf
  split <;> rfl

theorem isActiveSel_selOf (sel : Byte) : isActiveSel (selOf sel) = decide (sel = 0) := by
  unfold selOf
  split <;> simp_all [isActiveSel]

theorem bankByte_selOf {sel : Byte} (h : sel.toNat < 2) : bankByte (selOf sel) = sel := by
  rcases eq_zero_or_one h with rfl | rfl <;> rfl

theorem bankOf_congr {l l' : Live} (h : l'.active = l.active) (sel : Byte) : bankOf l' sel = bankOf l sel := by
  unfold bankOf
  rw [h]

theorem catchUp_active (s : State) : (catchUp s).live.active = s.live.active := by
  rw [catchUp_live]
  exact (catchUpLive_rest s.cfg s.live).2.2.1

theorem catchUp_switch (s : State) : (catchUp s).live.switch = s.live.switch := by
  obtain ⟨-, -, -, -, -, -, -, -, h, -⟩ := catchUpLive_rest s.cfg s.live
  rw [catchUp_live]
  exact h

/-! ### Records as bytes -/

theorem writeMember_eq (lane : Option MemberRec) : writeMember lane = laneBytes lane := by
  cases lane with
  | none => rfl
  | some m =>
    have h : (128 + (if m.talk = true then 64 else 0) + (if m.listen = true then 32 else 0) + m.port.val) =
        128 + 64 * m.talk.toNat + 32 * m.listen.toNat + m.port.val := by
      cases m.talk <;> cases m.listen <;> rfl
    simp only [writeMember, laneBytes, h, natByte]
    cases m.keyUp <;> rfl

theorem writeRecord_eq (r : PatchRec) : writeRecord r = recordBytes r := by
  have h : ((if r.valid = true then 1 else 0) + (if r.mode = .mix then 2 else 0)) =
      r.valid.toNat + 2 * (decide (r.mode = .mix)).toNat := by
    cases r.valid <;> cases r.mode <;> rfl
  unfold writeRecord recordBytes
  rw [h]
  simp [natByte, allLanes, writeMember_eq]

/-! ### READ PATCH -/

theorem orderReadPatch_good {sel : Byte} (h : sel.toNat < 2) (q : Patch) (c : Settings) (l : Live) :
    orderReadPatch [sel, BitVec.ofNat 8 q.val] c l =
      answer c l ([sel, BitVec.ofNat 8 q.val] ++ recordBytes (bankRecord c (bankOf l sel) q)) := by
  have h0 : byteAt [sel, BitVec.ofNat 8 q.val] 0 = sel.toNat := rfl
  have h1 : byteAt [sel, BitVec.ofNat 8 q.val] 1 = (BitVec.ofNat 8 q.val).toNat := rfl
  unfold orderReadPatch
  rw [if_neg (by simp), h0, h1, readBank_selOf h, readPatchNumber_val]
  simp only [bankByte_selOf h, resolveBank_selOf, writeRecord_eq, natByte]

theorem orderReadPatch_bad {sel b : Byte} (h : 1 < sel.toNat ∨ 7 < b.toNat) (c : Settings) (l : Live) :
    orderReadPatch [sel, b] c l = refuse .range c l := by
  have h0 : byteAt [sel, b] 0 = sel.toNat := rfl
  have h1 : byteAt [sel, b] 1 = b.toNat := rfl
  unfold orderReadPatch
  rw [if_neg (by simp), h0, h1]
  rcases h with h | h
  · rw [readBank_none h]
  · rw [readPatchNumber_none h]
    cases readBank sel.toNat <;> rfl

/-- Settles O20: the order reads the record of the bank that its selector names. -/
theorem readPatchAnswersTheStoredRecord : Obligations.ReadPatchAnswersTheStoredRecord := by
  refine ⟨fun sel q s hsel h => ?_, fun sel b s hbad h => ?_⟩
  · show Host.Outcome.next (carryOut 0x20 _ _ s) = _
    rw [carryOut_of_holds _ h, orderReadPatch_good hsel, ← catchUp_cfg s, answered_answer,
      bankOf_congr (catchUp_active s)]
  · show Host.Outcome.next (carryOut 0x20 _ _ s) = _
    rw [carryOut_refuses h (orderReadPatch_bad hbad _ _)]
    rfl

end Sys2Proof.Carrying

/-! SUPPORT. What a reset leaves: the live state entry by entry, the settings, the channel and the highway; and how a
reset in progress drives the highway (R5, R26, R44, R60, R66, R96, R118, R132, R155, R168, R175). -/

namespace Sys2Proof.Resets

open Sys2Proof.Machine Sys2Proof.Safety Sys2Proof.Claims Sys2Proof.Patches Sys2Proof.PlanLaws

/-! ### The live state after a reset -/

@[simp] theorem fresh_rx (a : Bank) (mode : Patch → Mode) (p : Port) :
    look (Live.fresh a mode).rx p = RxPort.fresh p := by
  simp [Live.fresh]

@[simp] theorem fresh_fla (a : Bank) (mode : Patch → Mode) (q : Patch) :
    look (Live.fresh a mode).fla q = FloorState.default (mode q) := by
  simp [Live.fresh]

@[simp] theorem fresh_rings (a : Bank) (mode : Patch → Mode) (q : Patch) :
    look (Live.fresh a mode).rings q = Ring.fresh := by
  simp [Live.fresh]

@[simp] theorem fresh_tx (a : Bank) (mode : Patch → Mode) (p : Port) :
    look (Live.fresh a mode).tx p = TxPort.dormant := by
  simp [Live.fresh]

@[simp] theorem fresh_ovr (a : Bank) (mode : Patch → Mode) (q : Patch) :
    look (Live.fresh a mode).ovr q = OverrideState.empty := by
  simp [Live.fresh]

@[simp] theorem fresh_lamps (a : Bank) (mode : Patch → Mode) (p : Port) :
    look (Live.fresh a mode).lamps p = false := by
  simp [Live.fresh]

theorem cleared_fresh (a : Bank) (mode : Patch → Mode) : ClearedByReset (Live.fresh a mode) a mode := by
  refine ⟨rfl, fun p => ?_, fun q => ?_, fun q => ?_, fun p => ?_, fun q => ?_, fun p => ?_, rfl, rfl, rfl, rfl⟩
  · rw [fresh_rx]
    by_cases hp : p.val < 16
    · have : isConsole p = false := by simpa [isConsole] using hp
      simp [RxPort.fresh, Debounce.begun, this]
    · simp [RxPort.fresh, Debounce.begun, hp, apply_ite Debounce.level, Debounce.unused]
  · simp [ctxOf, claimantsOf, FloorState.default, Context.default]
  · rw [fresh_rings]; rfl
  · rw [fresh_tx]; exact ⟨rfl, rfl, rfl, rfl, rfl⟩
  · rw [fresh_ovr]; rfl
  · exact fresh_lamps a mode p

/-- RESTART recorded changes the condition sets and the report queue alone. -/
theorem cleared_withRestart {l : Live} {a : Bank} {mode : Patch → Mode} (h : ClearedByReset l a mode) :
    ClearedByReset l.withRestart a mode := h

theorem noConditions_fresh (a : Bank) (mode : Patch → Mode) : NoConditions (Live.fresh a mode) :=
  ⟨fun src => by simp [Live.fresh], rfl⟩

theorem restartAlone_withRestart {l : Live} (h : NoConditions l) : RestartAlone l.withRestart := by
  have hput : ∀ (v : Vector Byte 27) (src : Source), look v src = 0 →
      look (v.set systemSource.val 1) src = if src = 26 then 1 else 0 := fun v src hv => by
    have := look_put v systemSource src 1
    rw [hv] at this
    exact this
  exact ⟨fun src => ⟨hput _ src (h.1 src).1, hput _ src (h.1 src).2⟩, rfl⟩

/-! ### The laws right after power-on -/

theorem portLaw_fresh (a : Bank) (mode : Patch → Mode) : PortLaw (Live.fresh a mode) := by
  intro p
  rw [fresh_tx, fresh_rx]
  exact ⟨rfl, rfl⟩

theorem floorLaw_fresh (a : Bank) (mode : Patch → Mode) : FloorLaw (Live.fresh a mode) := by
  intro q
  have hfits : floorFits (mode q) [] = true := by cases mode q <;> rfl
  simp [ctxOf, FloorState.default, Context.default, contextLawful, saveLawful, OverrideState.empty, hfits]

theorem grantLaw_fresh (a : Bank) (mode : Patch → Mode) : GrantLaw (Live.fresh a mode) := by
  intro p q h
  simp [onFloor, ctxOf, FloorState.default, Context.default] at h

theorem lagLaw_fresh (a : Bank) (mode : Patch → Mode) : LagLaw (Live.fresh a mode) := by
  intro p r h
  simp [keyed, TxPort.dormant] at h

theorem switchLaw_fresh (a : Bank) (mode : Patch → Mode) : SwitchLaw (Live.fresh a mode) := by
  have hn : switchPending (Live.fresh a mode) = false := rfl
  refine ⟨fun q => ?_, fun q h => ?_, fun _ => ⟨rfl, rfl, rfl⟩⟩
  · rw [fresh_fla, hn]; rfl
  · simp [hn] at h

theorem pendingLaw_fresh (c : Settings) (a : Bank) (mode : Patch → Mode) : PendingLaw c (Live.fresh a mode) := by
  intro h
  simp [switchPending, Live.fresh, SwitchCtl.fresh] at h

theorem overrideLaw_fresh (c : Settings) (a : Bank) (mode : Patch → Mode) : OverrideLaw c (Live.fresh a mode) := by
  have halert : ∀ q, underAlert (Live.fresh a mode) q = false := fun q => by
    simp [underAlert, ctxOf, FloorState.default, Context.default]
  refine ⟨fun q => ?_, fun q h => ?_, fun q p h => ?_, fun p => ?_, fun q => ?_, List.nodup_nil, ?_, fun _ => rfl⟩
  · rw [fresh_ovr, halert]; rfl
  · simp [halert] at h
  · simp [OverrideState.empty] at h
  · simp [isMaydayPort, OverrideState.empty]
  · rw [fresh_ovr]; rfl
  · intro q h
    simp [Live.fresh] at h

theorem claimLaw_fresh (c : Settings) (a : Bank) (mode : Patch → Mode) : ClaimLaw c (Live.fresh a mode) := by
  constructor <;> intro q p h <;> simp [claimantsOf, ctxOf, FloorState.default, Context.default] at h

theorem ignoredLaw_fresh (c : Settings) (a : Bank) (mode : Patch → Mode) : IgnoredLaw c (Live.fresh a mode) := by
  intro p _
  simp [rxActive, RxPort.fresh]

theorem reportLaw_restart {l : Live} (h : NoConditions l) (hr : l.raised = []) : ReportLaw l.withRestart := by
  have hone := restartAlone_withRestart h
  refine ⟨List.nodup_singleton _, fun src hs => ?_, fun src => ?_, hr⟩
  · rw [hone.2, List.mem_singleton] at hs
    rw [(hone.1 src).1, if_pos hs]
    decide
  · rw [(hone.1 src).1, (hone.1 src).2, BitVec.and_self]

theorem channelLaw_fresh : ChannelLaw Channel.fresh := by
  unfold ChannelLaw
  decide

/-- Settles O55: each law of the state that power-on leaves. -/
theorem lawsHoldAtReset : Obligations.LawsHoldAtReset :=
  ⟨lawful_powerOn.1, lawful_powerOn.2, ⟨rfl, fun q => by simp [State.reset, Ring.fresh]⟩, portLaw_fresh 0 fun _ => .single,
    floorLaw_fresh 0 fun _ => .single, grantLaw_fresh 0 fun _ => .single, lagLaw_fresh 0 fun _ => .single,
    switchLaw_fresh 0 fun _ => .single, pendingLaw_fresh _ 0 fun _ => .single,
    overrideLaw_fresh _ 0 fun _ => .single, claimLaw_fresh _ 0 fun _ => .single,
    ignoredLaw_fresh _ 0 fun _ => .single, reportLaw_restart (noConditions_fresh _ _) rfl, channelLaw_fresh⟩

/-! ### The settings, the channel and the highway after a reset -/

theorem plan_and_ports_powerOn : PlanAndPortsCleared Settings.powerOn := by
  refine ⟨fun b q => ?_, fun p hp => ?_, fun p hp => ?_⟩
  · rw [bankRecord_powerOn]
    exact ⟨rfl, rfl, look_cleared⟩
  · have : isConsole p = false := by simpa [isConsole] using hp
    simp [Settings.powerOn, PortRec.powerOn, this]
  · have : isConsole p = true := by simpa [isConsole] using hp
    simp [Settings.powerOn, PortRec.powerOn, this]

theorem channelCleared_fresh : ChannelCleared Channel.fresh := ⟨rfl, rfl, rfl, rfl, rfl, rfl, rfl, rfl⟩

@[simp] theorem look_idle_samples (p : Port) : look Outbound.idle.samples p = 0 := by simp [Outbound.idle]

@[simp] theorem portBit_replicate (n : Nat) : portBit (Vector.replicate 18 false) n = false := by
  simp [portBit]

theorem bitsByte_false : bitsByte (fun _ => false) = 0 := by decide

theorem idle_slot (k : Nat) (hk : k < 44) : Outbound.idle.slot k = some 0 := by
  unfold Outbound.slot
  split
  · rw [look_idle_samples]
    split <;> rfl
  · simp only [Outbound.idle, portBit_replicate, bitsByte_false]
    repeat' split
    all_goals first | rfl | omega

theorem highwayWaits_fresh (k r : Bool) : HighwayWaits (Highway.fresh k r) :=
  ⟨rfl, rfl, rfl, fun p => by simp [Highway.fresh], rfl, rfl, rfl, idle_slot⟩

/-- Settles O5: the parts of the state that power-on leaves. -/
theorem powerOnValues : Obligations.PowerOnValues :=
  ⟨plan_and_ports_powerOn, fun _ => rfl, rfl, fun p => by simp [State.reset, Settings.powerOn], rfl,
    fun src => by simp [State.reset, Settings.powerOn], cleared_withRestart (cleared_fresh _ _),
    restartAlone_withRestart (noConditions_fresh _ _), channelCleared_fresh, rfl, highwayWaits_fresh _ _, rfl, rfl, rfl⟩

/-! ### What the work of a frame leaves of the highway -/

/-- What the work of a frame leaves alone in the highway interface: all but the ring work still due, the byte places
filled so far and the level of the KEYSW line. -/
def fixedPart (h : Highway) : Highway := { h with ringDue := false, lanes := [], keysw := false }

theorem fixedPart_fields {h g : Highway} (e : fixedPart h = fixedPart g) :
    h.out = g.out ∧ h.formDue = g.formDue ∧ h.inReset = g.inReset ∧ h.phase = g.phase :=
  ⟨congrArg (·.out) e, congrArg (·.formDue) e, congrArg (·.inReset) e, congrArg (·.phase) e⟩

@[simp] theorem finishRing_fixed (s : State) : fixedPart (finishRing s).hwi = fixedPart s.hwi := by
  unfold finishRing
  split
  · simp only [fixedPart, catchUp_hwi]
  · rfl

@[simp] theorem answered_hwi (kind : Byte) (r : OrderResult) (s : State) : (answered kind r s).hwi = s.hwi := by
  simp only [answered]

@[simp] theorem carryOut_hwi (kind : Byte) (body : List Byte) (f : Settings → Live → OrderResult) (s : State) :
    (carryOut kind body f s).hwi = s.hwi := by
  unfold carryOut
  split
  · simp
  · rfl

@[simp] theorem carryOutAfterRing_fixed (kind : Byte) (body : List Byte) (f : Settings → Live → OrderResult)
    (s : State) : fixedPart (carryOutAfterRing kind body f s).hwi = fixedPart s.hwi := by
  unfold carryOutAfterRing
  split
  · simp
  · rfl

@[simp] theorem carryOutWithKey_fixed (kind : Byte) (body : List Byte) (k : Bool)
    (f : Settings → Live → Bool → OrderResult) (s : State) :
    fixedPart (carryOutWithKey kind body k f s).hwi = fixedPart s.hwi := by
  unfold carryOutWithKey
  split
  · simp [fixedPart]
  · rfl

@[simp] theorem carryReset_hwi (body : List Byte) (s : State) : (carryReset body s).hwi = s.hwi := by
  unfold carryReset
  split
  · simp
  · split <;> rfl

@[simp] theorem carryProtection_fixed (body : List Byte) (s : State) :
    fixedPart (carryProtection body s).hwi = fixedPart s.hwi := by
  unfold carryProtection
  dsimp only
  repeat' split
  all_goals simp

@[simp] theorem carryByKind_fixed (kind : Byte) (body : List Byte) (s : State) :
    fixedPart (carryByKind kind body s).hwi = fixedPart s.hwi := by
  unfold carryByKind
  split <;> simp

@[simp] theorem takeEvent_hwi (due : Bool) (f : Settings → Live → Live) (s : State) :
    (takeEvent due f s).hwi = s.hwi := by
  unfold takeEvent
  split
  · simp only [catchUp_hwi]
  · rfl

@[simp] theorem putLane_fixed (b : Byte) (s : State) : fixedPart (putLane b s).hwi = fixedPart s.hwi := rfl

@[simp] theorem continueOnce_fixed (s : State) : fixedPart (continueOnce s).hwi = fixedPart s.hwi := by
  unfold continueOnce
  repeat' split
  all_goals simp

@[simp] theorem startMessage_fixed (msg : List Byte) (s : State) :
    fixedPart (startMessage msg s).hwi = fixedPart s.hwi := by
  simp [startMessage, continueMessage]

@[simp] theorem beforeLane_hwi (s : State) : (beforeLane s).hwi = s.hwi := by
  simp [beforeLane, resetFirst]

@[simp] theorem chooseLane_fixed (s : State) : fixedPart (chooseLane s).hwi = fixedPart s.hwi := by
  unfold chooseLane sendReply sendReport
  repeat' split
  all_goals simp

@[simp] theorem fillLane_fixed (s : State) : fixedPart (fillLane s).hwi = fixedPart s.hwi := by
  unfold fillLane
  dsimp only
  repeat' split
  all_goals simp

@[simp] theorem takeByte_hwi (s : State) : (takeByte s).hwi = s.hwi := by
  unfold takeByte
  split
  · rfl
  · simp only [catchUp_hwi]

@[simp] theorem carryHeld_fixed (s : State) : fixedPart (carryHeld s).hwi = fixedPart s.hwi := by
  unfold carryHeld
  repeat' split
  all_goals simp

@[simp] theorem takeCor_hwi (p : Port) (s : State) : (takeCor p s).hwi = s.hwi := by
  unfold takeCor
  split <;> simp

@[simp] theorem takeEmg_hwi (p : Port) (s : State) : (takeEmg p s).hwi = s.hwi := by
  unfold takeEmg
  split <;> simp

@[simp] theorem runTask_fixed (s : State) (k : FrameTask) : fixedPart (runTask s k).hwi = fixedPart s.hwi := by
  cases k <;> simp [runTask, takeTalkTime, takeKeyUp, takeHang, takeKeyConfirm, takeAlertTimer, takeGrace]

@[simp] theorem settleFrame_fixed (s : State) : fixedPart (settleFrame s).hwi = fixedPart s.hwi := by
  have h := foldl_keeps (fun t => fixedPart t.hwi = fixedPart s.hwi) runTask
    (fun t k e => (runTask_fixed t k).trans e) remainingTasks s rfl
  simpa [settleFrame] using h

/-! ### A reset in progress -/

/-- A reset is in progress: its outbound timeslots are idle, and nothing of a frame is left to form (R175). -/
def HeldInReset (h : Highway) : Prop := h.inReset = true ∧ h.formDue = false ∧ h.out = Outbound.idle

theorem HeldInReset.congr {h g : Highway} (hh : HeldInReset h) (e : fixedPart g = fixedPart h) : HeldInReset g := by
  obtain ⟨hout, hform, hreset, -⟩ := fixedPart_fields e
  exact ⟨hreset.trans hh.1, hform.trans hh.2.1, hout.trans hh.2.2⟩

theorem HeldInReset.beginFrame {s : State} (h : HeldInReset s.hwi) (n : Nat) : HeldInReset (beginFrame n s).hwi := h

/-- A pulse during a reset begins a frame, or finds one in progress, with idle timeslots. -/
theorem pulse_heldInReset {t u : State} (h : HeldInReset t.hwi) (hu : Answers .hfsPulse t u) :
    HeldInReset u.hwi ∧ u.hwi.phase = .running := by
  have hs : HeldInReset (settleFrame t).hwi := h.congr (settleFrame_fixed t)
  have hf : formOutbound (settleFrame t) = settleFrame t := by
    unfold formOutbound
    rw [hs.2.1]
    rfl
  injection hu with e
  subst e
  cases hp : t.hwi.phase with
  | waiting => exact hf.symm ▸ ⟨hs.beginFrame _, by simp only [beginFrame]⟩
  | arrived => exact hf.symm ▸ ⟨hs.beginFrame _, by simp only [beginFrame]⟩
  | running => exact ⟨h, hp⟩

theorem drivesZeros_of_held {t : State} (h : HeldInReset t.hwi) : DrivesZeros t := by
  intro u hu k hk
  obtain ⟨⟨-, -, hout⟩, hphase⟩ := pulse_heldInReset h hu
  simp only [State.hdo, hphase, hout, idle_slot k hk]

theorem drivesZerosInReset_of_held {t : State} (h : HeldInReset t.hwi) : DrivesZerosInReset t := by
  refine ⟨drivesZeros_of_held h, fun hdi k ts u v hu hv => drivesZeros_of_held ?_⟩
  obtain ⟨hheld, hphase⟩ := pulse_heldInReset h hu
  injection hv with e
  subst e
  rw [if_pos hphase]
  unfold arrive
  rw [if_pos hheld.1]
  exact hheld

theorem noConditions_and_rest_released (s : State) :
    { (rstReleased s).live with exc := s.live.exc, acc := s.live.acc, queue := s.live.queue } = s.live := rfl

/-- Settles O6: the states that the two resets leave, and what the release of RST adds. -/
theorem powerOnAndRstReset : Obligations.PowerOnAndRstReset := by
  refine ⟨fun s => ⟨poweredOn false s, rfl, rfl, rfl, channelCleared_fresh, rfl, highwayWaits_fresh _ _, rfl, rfl, rfl⟩,
    fun s => ⟨poweredOn true s, rfl, rfl, cleared_fresh _ _, noConditions_fresh _ _, channelCleared_fresh, rfl,
      highwayWaits_fresh _ _, rfl, drivesZerosInReset_of_held ⟨rfl, rfl, rfl⟩, rfl, rfl⟩,
    fun s => ⟨rstAsserted s, rfl, plan_and_ports_powerOn, rfl, rfl, rfl, rfl, fun src => ?_, cleared_fresh _ _,
      noConditions_fresh _ _, channelCleared_fresh, rfl, rfl, fun p => ?_, idle_slot,
      drivesZerosInReset_of_held ⟨rfl, rfl, rfl⟩, rfl, rfl, rfl⟩,
    fun s hs hn => ⟨rstReleased s, ?_, restartAlone_withRestart hn, rfl, rfl, rfl, rfl,
      noConditions_and_rest_released s⟩⟩
  · simp [rstAsserted, Settings.afterRst, Settings.powerOn]
  · simp [rstAsserted, Highway.intoReset]
  · show Host.Outcome.next _ = _
    rw [if_pos hs]

end Sys2Proof.Resets

/-! SUPPORT. The RESET order (R170): nothing is due after it but the ring work and the byte places of its frame, so that
the next pulse forms idle timeslots, RTR, and what is left of a message in flight with the first bytes of the reply. -/

namespace Sys2Proof.ResetOrders

open Sys2Proof.Machine Sys2Proof.Safety Sys2Proof.Claims Sys2Proof.Carrying Sys2Proof.Resets

/-! ### A live state that a reset has just left -/

/-- The live state as a completed reset leaves it. -/
def JustReset (l : Live) : Prop := ∃ a mode, l = (Live.fresh a mode).withRestart

theorem foldl_fixed {α β : Type} {f : β → α → β} {b : β} (xs : List α) (h : ∀ a ∈ xs, f b a = b) :
    xs.foldl f b = b :=
  foldl_keeps_mem (fun x => x = b) f xs (fun _ a ha e => e ▸ h a ha) b rfl

theorem JustReset.tx {l : Live} (h : JustReset l) (p : Port) : look l.tx p = TxPort.dormant := by
  obtain ⟨a, mode, rfl⟩ := h
  exact fresh_tx a mode p

theorem JustReset.rx {l : Live} (h : JustReset l) (p : Port) : look l.rx p = RxPort.fresh p := by
  obtain ⟨a, mode, rfl⟩ := h
  exact fresh_rx a mode p

theorem JustReset.lamps {l : Live} (h : JustReset l) (p : Port) : look l.lamps p = false := by
  obtain ⟨a, mode, rfl⟩ := h
  exact fresh_lamps a mode p

theorem JustReset.writer {l : Live} (h : JustReset l) (q : Patch) :
    writerActive l q = false ∧ underAlert l q = false := by
  obtain ⟨a, mode, rfl⟩ := h
  simp [writerActive, underAlert, ctxOf, FloorState.default, Context.default]

theorem JustReset.rest {l : Live} (h : JustReset l) :
    l.gen = CadenceGen.stopped ∧ switchPending l = false ∧ l.raised = [] := by
  obtain ⟨a, mode, rfl⟩ := h
  exact ⟨rfl, rfl, rfl⟩

theorem setTx_same {l : Live} {p : Port} {t : TxPort} (h : look l.tx p = t) : l.setTx p t = l := by
  subst h
  simp [Live.setTx]

theorem JustReset.catchUp {l : Live} (h : JustReset l) (c : Settings) : catchUpLive c l = l := by
  have hang : enterHangs c l = l := foldl_fixed _ fun p _ => by
    simp [enterHangNow, h.tx, TxPort.dormant]
  simp [catchUpLive, hang, endCadence, cadenceDue, h.rest.1, CadenceGen.stopped]

/-- The ring work of the frame finds nothing to serve and nothing to append. -/
theorem JustReset.ringWork {l : Live} (h : JustReset l) (c : Settings) (received : Vector Sample 18) :
    ringWork c received l = l := by
  have keyUps : allPorts.foldl keyUpDone l = l := foldl_fixed _ fun p _ => by
    simp [keyUpDone, h.tx, TxPort.dormant]
  have serves : allPorts.foldl (servePort c) l = l := foldl_fixed _ fun p _ => by
    have hset : l.setTx p TxPort.dormant = l := setTx_same (h.tx p)
    simp only [servePort, h.tx, TxPort.dormant, reduceCtorEq, if_false]
    exact hset
  have appends : ∀ alert, allPatches.foldl (appendRing c received alert) l = l := fun alert =>
    foldl_fixed _ fun q _ => by simp [appendRing, (h.writer q).1]
  have cadence : advanceCadence c.cadence l.gen = l.gen := by rw [h.rest.1]; rfl
  simp only [Machine.ringWork, keyUps, serves, appends, cadence]
  exact recordRaised_nil c l h.rest.2.2

/-! ### A state in which nothing but the ring work and the byte places is due -/

/-- A reset has just been completed, and the channel has nothing to parse, hand on, refuse, take or carry out. -/
def Quiet (s : State) : Prop :=
  JustReset s.live ∧ s.mci.parsed = none ∧ s.mci.inBytes = [] ∧ s.mci.buffer = [] ∧ s.mci.owed = [] ∧
    s.mci.oru = none

theorem Quiet.catchUp {s : State} (h : Quiet s) : catchUp s = s := by
  obtain ⟨hl, hparsed, -, hbuffer, howed, horu⟩ := h
  have hchannel : catchUpChannel s.mci = s.mci := by
    simp [catchUpChannel, handOnParsed, hparsed, moveAllOwed, moveOwed, howed, takeOrder, horu, hbuffer]
  simp only [Machine.catchUp, hl.catchUp, hchannel]

theorem Quiet.beforeLane {s : State} (h : Quiet s) : beforeLane s = s := by
  have hreset : resetFirst s = s := by
    obtain ⟨-, -, -, -, -, horu⟩ := h
    simp [resetFirst, carryReset, holdsDue, horu]
  simp [Machine.beforeLane, h.catchUp, hreset]

theorem Quiet.finishRing {s : State} (h : Quiet s) :
    finishRing s = { s with hwi := { s.hwi with ringDue := false } } := by
  unfold Machine.finishRing
  split
  · simp only [h.catchUp, h.1.ringWork]
  · rename_i hd
    have : s.hwi.ringDue = false := by simpa using hd
    rw [← this]

theorem takeEvent_false (f : Settings → Live → Live) (s : State) : takeEvent false f s = s := rfl

/-- Of the tasks of a frame only the ring work and the byte places do anything in a quiet state. -/
theorem Quiet.runTask {s : State} (h : Quiet s) {k : FrameTask} (hr : k ≠ .ring) (hl : k ≠ .lane)
    (hg : k ≠ .graceFirst) : runTask s k = s := by
  obtain ⟨live, -, hbytes, -, -, horu⟩ := h
  have hcor : ∀ p, (look s.live.rx p).cor.due = none := fun p => by rw [live.rx]; rfl
  have hemg : ∀ p, (look s.live.rx p).emg.due = none := fun p => by
    rw [live.rx]; simp [RxPort.fresh, apply_ite Debounce.due, Debounce.unused, Debounce.begun]
  cases k with
  | ring => exact absurd rfl hr
  | lane => exact absurd rfl hl
  | graceFirst => exact absurd rfl hg
  | byte => simp [Machine.runTask, takeByte, hbytes]
  | order => simp [Machine.runTask, carryHeld, horu]
  | cor p => simp [Machine.runTask, takeCor, hcor]
  | emg p => simp [Machine.runTask, takeEmg, hemg]
  | talkTime p => simp [Machine.runTask, takeTalkTime, rxActive, live.rx, RxPort.fresh, takeEvent_false]
  | keyUp p => simp [Machine.runTask, takeKeyUp, keyUpDue, live.tx, TxPort.dormant, takeEvent_false]
  | hang p => simp [Machine.runTask, takeHang, live.tx, TxPort.dormant, takeEvent_false]
  | keyConfirm p => simp [Machine.runTask, takeKeyConfirm, keyed, live.tx, TxPort.dormant, takeEvent_false]
  | alert q => simp [Machine.runTask, takeAlertTimer, (live.writer q).2, takeEvent_false]
  | grace => simp [Machine.runTask, takeGrace, live.rest.2.1, takeEvent_false]

/-- The events that the work of a frame takes before its ring work, in the order of `remainingTasks`. -/
def eventTasks : List FrameTask :=
  allPorts.map .cor ++ allPorts.map .emg ++ allPorts.map .talkTime ++ allPorts.map .keyConfirm ++
    allPorts.map .hang ++ allPatches.map .alert ++ [.grace]

theorem remainingTasks_eq : remainingTasks = eventTasks ++ [.ring, .byte, .byte, .order, .lane, .lane] := by
  simp [remainingTasks, eventTasks]

theorem ne_of_mem_eventTasks {k : FrameTask} (h : k ∈ eventTasks) : k ≠ .ring ∧ k ≠ .lane ∧ k ≠ .graceFirst := by
  refine ⟨?_, ?_, ?_⟩ <;> rintro rfl <;> simp [eventTasks] at h

/-- The work of a frame in a quiet state is the ring work and two byte places. -/
theorem Quiet.settleFrame {s : State} (h : Quiet s) :
    settleFrame s = Machine.catchUp (fillLane (fillLane (Machine.finishRing s))) := by
  have hevents : eventTasks.foldl Machine.runTask s = s := foldl_fixed _ fun k hk =>
    have ⟨hring, hlane, hgrace⟩ := ne_of_mem_eventTasks hk
    h.runTask hring hlane hgrace
  have hq : Quiet (Machine.finishRing s) := by rw [h.finishRing]; exact h
  have hbyte := hq.runTask (k := .byte) (by simp) (by simp) (by simp)
  have horder := hq.runTask (k := .order) (by simp) (by simp) (by simp)
  rw [Machine.settleFrame, remainingTasks_eq, List.foldl_append, hevents]
  simp only [List.foldl_cons, List.foldl_nil]
  rw [show Machine.runTask s .ring = Machine.finishRing s from rfl, hbyte, hbyte, horder]
  rfl

/-! ### The byte places -/

/-- A quiet state whose one reply is ready, with what is left of a message and the byte places filled so far. -/
def ReplyWaits (s : State) (body out lanes : List Byte) : Prop :=
  Quiet s ∧ s.mci.replies = [.ready body] ∧ s.mci.out = out ∧ s.hwi.formDue = true ∧ s.hwi.lanes = lanes

/-- The byte places of the next frame, once filled: what is carried on and the reply fill them in order. -/
def Filled (s : State) (bytes : List Byte) : Prop :=
  Quiet s ∧ s.mci.replies.length < 2 ∧ s.hwi.formDue = true ∧ 2 ≤ s.hwi.lanes.length ∧
    ∀ i, i < 2 → s.hwi.lanes.getD i 0 = bytes.getD i 0

theorem fillLane_of_closed {s : State} (h : 2 ≤ s.hwi.lanes.length) : fillLane s = s := by
  have : laneOpen s = false := by
    simp only [laneOpen, Bool.and_eq_false_imp, decide_eq_false_iff_not]
    omega
  simp [fillLane, this]

/-- A message going on takes the next byte place. -/
theorem ReplyWaits.continues {s : State} {body out lanes : List Byte} {b : Byte}
    (h : ReplyWaits s body (b :: out) lanes) (hl : lanes.length < 2) :
    ReplyWaits (fillLane s) body out (lanes ++ [b]) := by
  obtain ⟨hq, hr, ho, hf, hlanes⟩ := h
  have hopen : laneOpen s = true := by simp [laneOpen, hf, hlanes, hl]
  have hfill : fillLane s = putLane b { s with mci := { s.mci with out := out } } := by
    simp [fillLane, hopen, hq.beforeLane, ho, continueOnce]
  rw [hfill]
  exact ⟨hq, hr, rfl, hf, by simp [putLane, hlanes]⟩

/-- With no message in flight the reply starts, and fills the places that are left. -/
theorem ReplyWaits.starts {s : State} {body lanes : List Byte} (h : ReplyWaits s body [] lanes)
    (hl : lanes.length < 2) : Filled (fillLane s) (lanes ++ message replyKind body) := by
  obtain ⟨hq, hr, ho, hf, hlanes⟩ := h
  have hopen : laneOpen s = true := by simp [laneOpen, hf, hlanes, hl]
  have hfill : fillLane s = sendReply body s := by
    simp [fillLane, hopen, hq.beforeLane, ho, chooseLane, nextReply, hr]
  rw [hfill]
  match lanes, hl with
  | [], _ =>
    have hsend : sendReply body s = { s with
        mci := { s.mci with replies := [], out := body }
        hwi := { s.hwi with lanes := [replyKind, natByte body.length] } } := by
      simp [sendReply, hr, startMessage, message, continueMessage, continueOnce, putLane, laneOpen, hf, hlanes]
    rw [hsend]
    refine ⟨hq, by simp, hf, by simp, fun i hi => ?_⟩
    interval_cases i <;> rfl
  | [a], _ =>
    have hsend : sendReply body s = { s with
        mci := { s.mci with replies := [], out := natByte body.length :: body }
        hwi := { s.hwi with lanes := [a, replyKind] } } := by
      simp [sendReply, hr, startMessage, message, continueMessage, continueOnce, putLane, laneOpen, hf, hlanes]
    rw [hsend]
    refine ⟨hq, by simp, hf, by simp, fun i hi => ?_⟩
    interval_cases i <;> rfl

theorem ReplyWaits.filled {s : State} {body out lanes : List Byte} (h : ReplyWaits s body out lanes)
    (hl : 2 ≤ lanes.length) (bytes : List Byte) : Filled s (lanes ++ bytes) := by
  obtain ⟨hq, hr, -, hf, rfl⟩ := h
  refine ⟨hq, by simp [hr], hf, hl, fun i hi => ?_⟩
  rw [List.getD_append _ _ _ _ (by omega)]

theorem Filled.congr {s : State} {xs ys : List Byte} (h : Filled s xs) (e : xs = ys) : Filled s ys := e ▸ h

/-- Two fillings leave both byte places filled, by the message in flight and then by the reply (R167). -/
theorem ReplyWaits.fill_twice {s : State} {body out lanes : List Byte} (h : ReplyWaits s body out lanes) :
    Filled (fillLane (fillLane s)) (lanes ++ out ++ message replyKind body) := by
  have hlen : s.hwi.lanes = lanes := h.2.2.2.2
  by_cases hl : 2 ≤ lanes.length
  · have hs : fillLane s = s := fillLane_of_closed (by rwa [hlen])
    rw [hs, hs]
    exact (h.filled hl (out ++ message replyKind body)).congr (by simp)
  · cases out with
    | nil =>
      have hf := h.starts (by omega)
      rw [fillLane_of_closed hf.2.2.2.1]
      exact hf.congr (by simp)
    | cons b out =>
      have h1 := h.continues (by omega)
      by_cases hl1 : 2 ≤ (lanes ++ [b]).length
      · have hclosed : fillLane (fillLane s) = fillLane s := fillLane_of_closed (by rw [h1.2.2.2.2]; exact hl1)
        rw [hclosed]
        exact (h1.filled hl1 (out ++ message replyKind body)).congr (by simp)
      · cases out with
        | nil => exact (h1.starts (by omega)).congr (by simp)
        | cons d out =>
          have h2 := h1.continues (by omega)
          have hl2 : 2 ≤ (lanes ++ [b] ++ [d]).length := by simp
          exact (h2.filled hl2 (out ++ message replyKind body)).congr (by simp)

/-! ### The timeslots that the pulse forms -/

/-- Idle timeslots with RTR and two management bytes. -/
def readySlots (lane0 lane1 : Byte) : Outbound := { Outbound.idle with rtr := true, lane0 := lane0, lane1 := lane1 }

theorem readySlots_slot (a b : Byte) {k : Nat} (hk : k < 42) :
    (readySlots a b).slot k = some (if k = 38 then 4 else 0) := by
  unfold Outbound.slot
  split
  · have hs : ∀ p : Port, look (readySlots a b).samples p = 0 := look_idle_samples
    rw [if_neg (by omega), hs]
    split <;> rfl
  · simp only [readySlots, Outbound.idle, portBit_replicate, bitsByte_false]
    repeat' split
    all_goals first | rfl | omega

theorem Filled.formedSlots {s : State} {bytes : List Byte} (h : Filled s bytes) (hr : s.hwi.inReset = false) :
    formedSlots s = readySlots (bytes.getD 0 0) (bytes.getD 1 0) := by
  obtain ⟨⟨hl, -, -, hbuffer, -⟩, hreplies, -, -, hbytes⟩ := h
  have hsamples : mapTable (fun _ t => if t.state = .onAir then t.sample else 0) s.live.tx =
      Vector.replicate 18 0 := table_ext fun p => by simp [hl.tx, TxPort.dormant]
  have hkeys : mapTable (fun _ t => keyed t) s.live.tx = Vector.replicate 18 false :=
    table_ext fun p => by simp [hl.tx, TxPort.dormant, keyed]
  have hlamps : s.live.lamps = Vector.replicate 18 false := table_ext fun p => by simp [hl.lamps]
  have hrtr : s.rtr = true := by simp [State.rtr, hr, hbuffer, Config.bufferSize, Config.replyPlaces, hreplies]
  rw [Machine.formedSlots, hsamples, hkeys, hlamps, hrtr, hbytes 0 (by omega), hbytes 1 (by omega)]
  rfl

/-! ### The order -/

theorem carryReset_of_holds {s : State} (h : Holds s 0x02 []) : carryReset [] s = resetByOrder s := by
  have hd : holdsDue s 0x02 [] = true := holdsDue_of_holds h
  unfold carryReset
  rw [if_neg (by simp), if_pos hd]

theorem replyWaits_afterReset (s : State) (hf : s.hwi.formDue = true) :
    ReplyWaits (resetByOrder s) [0x02, 0x00] s.mci.out s.hwi.lanes :=
  ⟨⟨⟨_, _, rfl⟩, rfl, rfl, rfl, rfl, rfl⟩, rfl, rfl, hf, rfl⟩

theorem beginFrame_phase (n : Nat) (s : State) : (beginFrame n s).hwi.phase = .running := rfl

theorem beginFrame_out (n : Nat) (s : State) : (beginFrame n s).hwi.out = s.hwi.out := rfl

/-- What the pulse after a RESET order drives. -/
theorem pulse_afterReset {s u : State} (hphase : s.hwi.phase ≠ .running) (hr : s.hwi.inReset = false)
    (hf : s.hwi.formDue = true) (hu : Answers .hfsPulse (resetByOrder s) u) :
    ∃ bytes : List Byte, bytes = s.hwi.lanes ++ s.mci.out ++ wire 0x80 [0x02, 0x00] ∧
      u.hwi.phase = .running ∧ u.hwi.out = readySlots (bytes.getD 0 0) (bytes.getD 1 0) := by
  have hwait := replyWaits_afterReset s hf
  have hring : ReplyWaits (finishRing (resetByOrder s)) [0x02, 0x00] s.mci.out s.hwi.lanes := by
    rw [hwait.1.finishRing]
    exact hwait
  have hfilled := hring.fill_twice
  have hset : settleFrame (resetByOrder s) = fillLane (fillLane (finishRing (resetByOrder s))) := by
    rw [hwait.1.settleFrame, hfilled.1.catchUp]
  rw [← hset] at hfilled
  have hreset : (settleFrame (resetByOrder s)).hwi.inReset = false :=
    (fixedPart_fields (settleFrame_fixed (resetByOrder s))).2.2.1.trans hr
  have hform : (formOutbound (settleFrame (resetByOrder s))).hwi.out = formedSlots (settleFrame (resetByOrder s)) := by
    rw [formOutbound, if_pos hfilled.2.2.1]
  refine ⟨_, rfl, ?_⟩
  rw [hfilled.formedSlots hreset] at hform
  injection hu with e
  subst e
  have hp : (resetByOrder s).hwi.phase = s.hwi.phase := rfl
  cases hph : s.hwi.phase with
  | running => exact absurd hph hphase
  | waiting => rw [hph] at hp; simp only [hp]; exact ⟨beginFrame_phase _ _, (beginFrame_out _ _).trans hform⟩
  | arrived => rw [hph] at hp; simp only [hp]; exact ⟨beginFrame_phase _ _, (beginFrame_out _ _).trans hform⟩

theorem afterResetOrder_eq (c : Settings) (l : Live) :
    l.afterResetOrder c = (Live.fresh l.active (fun q => (activeRecord c l q).mode)).withRestart := rfl

theorem cleared_afterResetOrder (c : Settings) (l : Live) :
    ClearedByReset (l.afterResetOrder c) l.active (fun q => (activeRecord c l q).mode) ∧
      RestartAlone (l.afterResetOrder c) := by
  rw [afterResetOrder_eq]
  exact ⟨cleared_withRestart (cleared_fresh _ _), restartAlone_withRestart (noConditions_fresh _ _)⟩

theorem resetByOrder_live (s : State) : (resetByOrder s).live = s.live.afterResetOrder s.cfg := rfl

theorem resetByOrder_rtr {s : State} (h : s.hwi.inReset = false) : (resetByOrder s).rtr = true := by
  simp [State.rtr, h, resetByOrder, Channel.afterResetOrder, Channel.fresh, Config.bufferSize, Config.replyPlaces]

/-- Settles O7: what the RESET order leaves, and the timeslots of the pulse after it. -/
theorem resetOrder : Obligations.ResetOrder := by
  refine ⟨fun s h => ?_, fun s t u h hphase hr hf ht hu => ?_, fun s body hb h => ?_⟩
  · have hcleared := cleared_afterResetOrder s.cfg s.live
    rw [← resetByOrder_live] at hcleared
    exact ⟨resetByOrder s, congrArg Host.Outcome.next (carryReset_of_holds h), rfl, rfl, rfl, hcleared.1, hcleared.2,
      rfl, resetByOrder_rtr⟩
  · injection ht with e
    rw [carryReset_of_holds h] at e
    subst e
    obtain ⟨bytes, rfl, hrun, hout⟩ := pulse_afterReset hphase hr hf hu
    have hdo : ∀ k, u.hdo k = u.hwi.out.slot k := fun k => by simp only [State.hdo, hrun]
    refine ⟨fun k hk => ?_, ?_, ?_⟩
    · rw [hdo, hout, readySlots_slot _ _ hk]
    · rw [hdo, hout]; rfl
    · rw [hdo, hout]; rfl
  · show Host.Outcome.next (carryReset body s) = _
    have hlen : body.length ≠ 0 := fun e => hb (List.length_eq_zero_iff.1 e)
    rw [carryReset, if_pos hlen, carryOut_refuses h rfl]
    rfl

end Sys2Proof.ResetOrders

/-! SUPPORT. DELETE PATCH and CLEAR BANK (R12, R13): the checks in the words of the statements, and what a deletion
does to the live state part by part. -/

namespace Sys2Proof.Deletions

open Sys2Proof.Machine Sys2Proof.Safety Sys2Proof.Claims Sys2Proof.Patches Sys2Proof.Carrying Sys2Proof.ResetOrders

/-! ### Checks in the words of the statements -/

theorem switchPending_iff {l : Live} : switchPending l = true ↔ l.switch.state = .pending := by
  simp [switchPending]

theorem switchPending_false {l : Live} (h : l.switch.state = .none) : switchPending l = false := by
  simp [switchPending, h]

theorem overridden_iff {l : Live} {q : Patch} : overridden l q = true ↔ Overridden l q := by
  simp [overridden, Overridden, underAlert, Option.isSome_iff_ne_none, or_assoc]

theorem readersOf_eq_nil_iff {l : Live} {q : Patch} : readersOf l q = [] ↔ ∀ p : Port, reads l p q = false := by
  simp [readersOf, List.filter_eq_nil_iff]

theorem idle_iff {c : Settings} {l : Live} {q : Patch} : idle c l q = true ↔ Idle c l q := by
  simp only [idle, Idle, Bool.or_eq_true, Bool.not_eq_true', Bool.and_eq_true, List.isEmpty_iff,
    readersOf_eq_nil_iff, ← overridden_iff, Bool.not_eq_true, and_assoc]

theorem firstRefusal_cons_true (st : Status) (rest : List (Bool × Status)) :
    firstRefusal ((true, st) :: rest) = some st := rfl

theorem firstRefusal_cons_false (st : Status) (rest : List (Bool × Status)) :
    firstRefusal ((false, st) :: rest) = firstRefusal rest := rfl

/-! ### What recording leaves alone -/

@[simp] theorem recordRaised_active (c : Settings) (l : Live) : (recordRaised c l).active = l.active :=
  congrArg (·.active) (recordRaised_beyondReports c l)

@[simp] theorem recordRaised_rx (c : Settings) (l : Live) : (recordRaised c l).rx = l.rx :=
  congrArg (·.rx) (recordRaised_beyondReports c l)

@[simp] theorem recordRaised_fla (c : Settings) (l : Live) : (recordRaised c l).fla = l.fla :=
  congrArg (·.fla) (recordRaised_beyondReports c l)

@[simp] theorem recordRaised_rings (c : Settings) (l : Live) : (recordRaised c l).rings = l.rings :=
  congrArg (·.rings) (recordRaised_beyondReports c l)

@[simp] theorem recordRaised_tx (c : Settings) (l : Live) : (recordRaised c l).tx = l.tx :=
  congrArg (·.tx) (recordRaised_beyondReports c l)

@[simp] theorem recordRaised_ovr (c : Settings) (l : Live) : (recordRaised c l).ovr = l.ovr :=
  congrArg (·.ovr) (recordRaised_beyondReports c l)

@[simp] theorem recordRaised_lamps (c : Settings) (l : Live) : (recordRaised c l).lamps = l.lamps :=
  congrArg (·.lamps) (recordRaised_beyondReports c l)

@[simp] theorem recordRaised_guestHolder (c : Settings) (l : Live) : (recordRaised c l).guestHolder = l.guestHolder :=
  congrArg (·.guestHolder) (recordRaised_beyondReports c l)

@[simp] theorem recordRaised_guestQueue (c : Settings) (l : Live) : (recordRaised c l).guestQueue = l.guestQueue :=
  congrArg (·.guestQueue) (recordRaised_beyondReports c l)

@[simp] theorem recordRaised_gen (c : Settings) (l : Live) : (recordRaised c l).gen = l.gen :=
  congrArg (·.gen) (recordRaised_beyondReports c l)

@[simp] theorem recordRaised_switch (c : Settings) (l : Live) : (recordRaised c l).switch = l.switch :=
  congrArg (·.switch) (recordRaised_beyondReports c l)

/-! ### Folds over the ports -/

/-- A fold in which every port's step changes that port's transmit machine alone, by a function of it. -/
theorem foldl_setTx {g : Port → TxPort → TxPort} (xs : List Port) (hx : xs.Nodup) (l : Live) :
    xs.foldl (fun l p => l.setTx p (g p (look l.tx p))) l =
      { l with tx := mapTable (fun p t => if p ∈ xs then g p t else t) l.tx } := by
  induction xs generalizing l with
  | nil =>
    have : mapTable (fun _ t => t) l.tx = l.tx := table_ext fun p => by simp
    simp [this]
  | cons x xs ih =>
    obtain ⟨hmem, hnodup⟩ := List.nodup_cons.1 hx
    rw [List.foldl_cons, ih hnodup]
    simp only [Live.setTx, Live.mk.injEq, true_and, and_true]
    refine table_ext fun p => ?_
    simp only [look_mapTable, look_put, List.mem_cons]
    by_cases hp : p = x
    · subst hp; simp [hmem]
    · simp [hp]

theorem foldl_setTx_allPorts (g : Port → TxPort → TxPort) (l : Live) :
    allPorts.foldl (fun l p => l.setTx p (g p (look l.tx p))) l = { l with tx := mapTable g l.tx } := by
  rw [foldl_setTx _ allPorts_nodup]
  simp

/-! ### A deletion -/

/-- A transmit machine as a deletion of a record leaves it: a port in FAULT that stood there is DORMANT (R12, R76). -/
def leftFault (old : PatchRec) (p : Port) (t : TxPort) : TxPort :=
  if stands old p && decide (t.state = .fault) then TxPort.dormant else t

theorem clearRemovedFaults_eq (old : PatchRec) (l : Live) :
    clearRemovedFaults old PatchRec.cleared l = { l with tx := mapTable (leftFault old) l.tx } := by
  have hstands : ∀ p, stands PatchRec.cleared p = false := fun p => by
    rw [← Bool.not_eq_true, stands_iff]
    exact not_standsIn_cleared p
  rw [← foldl_setTx_allPorts]
  unfold clearRemovedFaults
  refine congrFun (congrArg₂ _ ?_ rfl) _
  funext l p
  by_cases hs : stands old p = true <;> by_cases hf : (look l.tx p).state = .fault <;>
    simp [hstands, leftFault, clearFault, hs, hf, setTx_same]

theorem keyed_dormant : keyed TxPort.dormant = false := rfl

theorem keyed_fault {t : TxPort} (h : t.state = .fault) : keyed t = false := by simp [keyed, h]

/-- A port that leaves FAULT reads nothing before or after. -/
theorem reads_leftFault (old : PatchRec) (l : Live) (fla : Vector FloorState 8) (p : Port) (q : Patch) :
    reads { l with tx := mapTable (leftFault old) l.tx, fla := fla } p q = reads l p q := by
  simp only [reads, look_mapTable, leftFault]
  split
  · rename_i hf
    simp only [Bool.and_eq_true, decide_eq_true_eq] at hf
    rw [keyed_fault hf.2, keyed_dormant]
    rfl
  · rfl

theorem flushRing_of_no_readers {l : Live} {q : Patch} (h : ∀ p, reads l p q = false) :
    flushRing q l = emptyRing q l := by
  unfold flushRing
  rw [readersOf_eq_nil_iff.2 h]
  rfl

/-- The live state after the deletion of a valid record whose ring nobody reads (R12). -/
def deleted (q : Patch) (old : PatchRec) (l : Live) : Live :=
  { l with
    tx := mapTable (leftFault old) l.tx
    fla := put l.fla q (FloorState.default .single)
    rings := put l.rings q { look l.rings q with store := [] } }

theorem liveDelete_eq {c : Settings} {q : Patch} {old : PatchRec} {l : Live}
    (hc : activeRecord c l q = PatchRec.cleared) (h : ∀ p, reads l p q = false) :
    liveDelete c q old l = deleted q old l := by
  have hfloor : defaultFloor c { l with tx := mapTable (leftFault old) l.tx } q =
      { l with tx := mapTable (leftFault old) l.tx, fla := put l.fla q (FloorState.default .single) } := by
    simp only [defaultFloor, Live.setFloor, activeRecord] at hc ⊢
    rw [hc]
    rfl
  rw [liveDelete, hc, clearRemovedFaults_eq, hfloor, flushRing_of_no_readers]
  · rfl
  · exact fun p => (reads_leftFault old l _ p q).trans (h p)

theorem leftFault_of_fault {old : PatchRec} {p : Port} {t : TxPort} (hs : StandsIn old p) (hf : t.state = .fault) :
    (leftFault old p t).state = .dormant := by
  simp [leftFault, stands_iff.2 hs, hf, TxPort.dormant]

theorem leftFault_of_not {old : PatchRec} {p : Port} {t : TxPort} (h : t.state ≠ .fault ∨ ¬ StandsIn old p) :
    leftFault old p t = t := by
  have : ¬ (stands old p = true ∧ t.state = .fault) := by
    rw [stands_iff]
    exact fun ⟨hs, hf⟩ => h.elim (fun hn => hn hf) (fun hn => hn hs)
  simp only [leftFault, Bool.and_eq_true, decide_eq_true_eq, if_neg this]

/-! ### DELETE PATCH -/

theorem withRecord_eq (c : Settings) (b : Bank) (q : Patch) (r : PatchRec) : withRecord c b q r = c.setRecord b q r := rfl

theorem bankOf_zero (l : Live) : bankOf l 0 = l.active := rfl

theorem activeRecord_setRecord {c : Settings} {l : Live} {b : Bank} (h : l.active = b) (q : Patch) (r : PatchRec) :
    activeRecord (c.setRecord b q r) l q = r := by
  simp [activeRecord, h, bankRecord_setRecord]

theorem orderDeletePatch_good (sel : BankSel) (q : Patch) (c : Settings) (l : Live) :
    orderDeletePatch [bankByte sel, BitVec.ofNat 8 q.val] c l =
      let old := bankRecord c (resolveBank l sel) q
      let c' := c.setRecord (resolveBank l sel) q PatchRec.cleared
      match firstRefusal [(switchPending l, .pending), (isActiveSel sel && protectedIn c old, .protectedPort),
        (isActiveSel sel && !idle c l q, .busy)] with
      | some st => refuse st c l
      | none =>
        { cfg := c'
          live := if isActiveSel sel && old.valid then closeEvent c' (liveDelete c' q old l)
            else if isActiveSel sel then defaultFloor c' l q
            else l
          status := .done
          data := [] } := by
  have h0 : byteAt [bankByte sel, BitVec.ofNat 8 q.val] 0 = (bankByte sel).toNat := rfl
  have h1 : byteAt [bankByte sel, BitVec.ofNat 8 q.val] 1 = (BitVec.ofNat 8 q.val).toNat := rfl
  unfold orderDeletePatch
  rw [if_neg (by simp), h0, h1, readBank_bankByte, readPatchNumber_val] <;> rfl

theorem orderDeletePatch_pending (sel : BankSel) {q : Patch} {c : Settings} {l : Live}
    (hp : l.switch.state = .pending) :
    orderDeletePatch [bankByte sel, BitVec.ofNat 8 q.val] c l = refuse .pending c l := by
  rw [orderDeletePatch_good, switchPending_iff.2 hp]
  rfl

theorem orderDeletePatch_standby {q : Patch} {c : Settings} {l : Live} {b : Bank} (hb : standbyBank l.active = b)
    (hn : l.switch.state = .none) :
    orderDeletePatch [bankByte .standby, BitVec.ofNat 8 q.val] c l =
      { cfg := c.setRecord b q PatchRec.cleared, live := l, status := .done, data := [] } := by
  rw [orderDeletePatch_good, switchPending_false hn, ← hb]
  rfl

section Active

variable {q : Patch} {c : Settings} {l : Live} {b : Bank} (hb : l.active = b) (hn : l.switch.state = .none)
include hb hn

theorem orderDeletePatch_protected (hp : HasProtected c (bankRecord c b q)) :
    orderDeletePatch [bankByte .active, BitVec.ofNat 8 q.val] c l = refuse .protectedPort c l := by
  rw [orderDeletePatch_good, switchPending_false hn]
  simp only [resolveBank, hb, protectedIn_iff.2 hp]
  rfl

theorem orderDeletePatch_busy (hp : ¬ HasProtected c (bankRecord c b q)) (hi : ¬ Idle c l q) :
    orderDeletePatch [bankByte .active, BitVec.ofNat 8 q.val] c l = refuse .busy c l := by
  rw [← protectedIn_iff, Bool.not_eq_true] at hp
  rw [← idle_iff, Bool.not_eq_true] at hi
  rw [orderDeletePatch_good, switchPending_false hn]
  simp only [resolveBank, hb, hp, hi]
  rfl

theorem orderDeletePatch_active (hp : ¬ HasProtected c (bankRecord c b q)) (hi : Idle c l q) :
    orderDeletePatch [bankByte .active, BitVec.ofNat 8 q.val] c l =
      { cfg := c.setRecord b q PatchRec.cleared
        live :=
          if (bankRecord c b q).valid then
            closeEvent (c.setRecord b q PatchRec.cleared)
              (liveDelete (c.setRecord b q PatchRec.cleared) q (bankRecord c b q) l)
          else defaultFloor (c.setRecord b q PatchRec.cleared) l q
        status := .done
        data := [] } := by
  rw [← protectedIn_iff, Bool.not_eq_true] at hp
  rw [← idle_iff] at hi
  rw [orderDeletePatch_good, switchPending_false hn]
  simp only [resolveBank, hb, hp, hi]
  rfl

end Active

theorem orderDeletePatch_bad {sel b : Byte} (h : 1 < sel.toNat ∨ 7 < b.toNat) (c : Settings) (l : Live) :
    orderDeletePatch [sel, b] c l = refuse .range c l := by
  have h0 : byteAt [sel, b] 0 = sel.toNat := rfl
  have h1 : byteAt [sel, b] 1 = b.toNat := rfl
  unfold orderDeletePatch
  rw [if_neg (by simp), h0, h1]
  rcases h with h | h
  · rw [readBank_none h]
  · rw [readPatchNumber_none h]
    cases readBank sel.toNat <;> rfl

theorem deletePatch_answers {s : State} {body : List Byte} (h : Holds s 0x23 body) :
    exec (.deletePatch body) s = .next (answered 0x23 (orderDeletePatch body s.cfg (catchUp s).live) (catchUp s)) :=
  congrArg Host.Outcome.next (carryOut_of_holds _ h)

theorem reads_of_idle {c : Settings} {l : Live} {q : Patch} (h : Idle c l q) (hv : (activeRecord c l q).valid = true)
    (p : Port) : reads l p q = false := by
  rcases h with h | ⟨-, h, -⟩
  · exact absurd (hv.symm.trans h) (by simp)
  · exact h p

/-- What a deletion of a valid record leaves, in the words of the statement. -/
theorem deleted_meets {c : Settings} {q : Patch} {old : PatchRec} {l t : Live}
    (hc : activeRecord c l q = PatchRec.cleared) (ht : t = recordRaised c (deleted q old l)) :
    StartedFresh c l t q ∧ OverridesKept l t ∧ t.active = l.active ∧
      (∀ p : Port, (look t.rx p).rx = (look l.rx p).rx) ∧
      (∀ p : Port, (look l.tx p).state = .fault → StandsIn old p → (look t.tx p).state = .dormant) ∧
      (∀ p : Port, (look l.tx p).state ≠ .fault ∨ ¬ StandsIn old p → look t.tx p = look l.tx p) ∧
      (∀ r : Patch, r ≠ q → look t.rings r = look l.rings r ∧ look t.fla r = look l.fla r) := by
  have hactive : t.active = l.active := by simp [ht, deleted]
  have hrecord : activeRecord c t q = PatchRec.cleared := by rw [← hc, activeRecord, activeRecord, hactive]
  have htx : t.tx = mapTable (leftFault old) l.tx := by simp [ht, deleted]
  have hfla : t.fla = put l.fla q (FloorState.default .single) := by simp [ht, deleted]
  have hrings : t.rings = put l.rings q { look l.rings q with store := [] } := by simp [ht, deleted]
  refine ⟨⟨?_, ?_, ?_, ?_, ?_, fun _ => ?_⟩, ?_, hactive, fun p => ?_, fun p hf hs => ?_, fun p h => ?_,
    fun r hr => ?_⟩
  · rw [hrecord]; simp [ctxOf, hfla, FloorState.default, Context.default, PatchRec.cleared]
  · simp [ctxOf, hfla, FloorState.default, Context.default]
  · simp [ctxOf, hfla, FloorState.default, Context.default]
  · simp [hfla, FloorState.default]
  · simp [hrings]
  · simp [ctxOf, claimantsOf, hfla, FloorState.default, Context.default]
  · simp [OverridesKept, ht, deleted]
  · simp [ht, deleted]
  · rw [htx, look_mapTable]; exact leftFault_of_fault hs hf
  · rw [htx, look_mapTable]; exact leftFault_of_not h
  · rw [hrings, hfla]
    exact ⟨look_put_ne _ _ _ _ hr, look_put_ne _ _ _ _ hr⟩

theorem idle_of_invalid {c : Settings} {l : Live} {q : Patch} (h : (activeRecord c l q).valid = false) : Idle c l q :=
  .inl h

/-- Settles O33: the checks, and then a deletion whose ring nobody reads. -/
theorem deletePatchClearsTheRecord : Obligations.DeletePatchClearsTheRecord := by
  refine ⟨fun sel q s hsel h => ?_, fun sel b s hbad h => ?_⟩ <;>
    have hans := deletePatch_answers h <;>
    have hcfg := catchUp_cfg s <;>
    have hactive := catchUp_active s <;>
    have hswitch := catchUp_switch s <;>
    dsimp only [Refuses] <;>
    generalize catchUp s = u at *
  case refine_2 => exact answers_refusal .range hans hcfg (orderDeletePatch_bad hbad _ _)
  rw [← hswitch]
  rcases eq_zero_or_one hsel with rfl | rfl
  · simp only [bankOf_zero]
    refine ⟨fun hp => answers_refusal .pending hans hcfg (orderDeletePatch_pending .active hp),
      fun hn _ hp => answers_refusal .protectedPort hans hcfg (orderDeletePatch_protected hactive hn hp),
      fun hn _ hp hi => answers_refusal .busy hans hcfg (orderDeletePatch_busy hactive hn hp hi),
      fun _ h0 => absurd rfl h0, fun hn _ hp hi hv => ?_, fun hn _ hp hv => ?_⟩
    · have horder := orderDeletePatch_active (q := q) hactive hn hp hi
      have hrec := activeRecord_setRecord (c := s.cfg) hactive q PatchRec.cleared
      have hread := reads_of_idle hi (by rw [activeRecord, hactive]; exact hv)
      rw [if_pos hv, liveDelete_eq hrec hread, closeEvent_notPending _ (deleted q _ u.live) (switchPending_false hn)] at horder
      exact ⟨_, answers_result hans horder, deleted_meets hrec rfl⟩
    · have hi := idle_of_invalid (c := s.cfg) (l := u.live) (q := q) (by rw [activeRecord, hactive]; exact hv)
      have horder := orderDeletePatch_active (q := q) hactive hn hp hi
      have hrec := activeRecord_setRecord (c := s.cfg) hactive q PatchRec.cleared
      rw [if_neg (Bool.not_eq_true _ ▸ hv), defaultFloor, hrec] at horder
      exact answers_result hans horder
  · refine ⟨fun hp => answers_refusal .pending hans hcfg (orderDeletePatch_pending .standby hp),
      fun _ h0 => absurd h0 (by decide), fun _ h0 => absurd h0 (by decide), fun hn _ => ?_,
      fun _ h0 => absurd h0 (by decide), fun _ h0 => absurd h0 (by decide)⟩
    exact answers_result hans (orderDeletePatch_standby (congrArg standbyBank hactive) hn)

end Sys2Proof.Deletions

/-! SUPPORT. CLEAR BANK (R13): the deletion of all eight records of a bank, patch by patch. -/

namespace Sys2Proof.BankClearing

open Sys2Proof.Machine Sys2Proof.Safety Sys2Proof.Claims Sys2Proof.Patches Sys2Proof.Carrying Sys2Proof.ResetOrders
  Sys2Proof.Deletions

/-! ### One patch -/

theorem activeRecord_clearBank {c : Settings} {l : Live} {b : Bank} (h : l.active = b) (q : Patch) :
    activeRecord (c.clearBank b) l q = PatchRec.cleared := by
  rw [activeRecord, bankRecord_clearBank, if_pos h]

/-- A patch cleared: deleted where its record was valid, its floor set to the default where it was not. -/
def clearedPatch (old : Patch → PatchRec) (l : Live) (q : Patch) : Live :=
  if (old q).valid then deleted q (old q) l else l.setFloor q (FloorState.default .single)

theorem reads_deleted (q : Patch) (old : PatchRec) (l : Live) (p : Port) (r : Patch) :
    reads (deleted q old l) p r = reads l p r :=
  reads_leftFault old l (put l.fla q (FloorState.default .single)) p r

theorem reads_clearedPatch (old : Patch → PatchRec) (l : Live) (q : Patch) (p : Port) (r : Patch) :
    reads (clearedPatch old l q) p r = reads l p r := by
  unfold clearedPatch
  split
  · exact reads_deleted _ _ _ _ _
  · rfl

theorem clearedPatch_active (old : Patch → PatchRec) (l : Live) (q : Patch) :
    (clearedPatch old l q).active = l.active := by
  unfold clearedPatch
  split <;> rfl

theorem clearPatch_eq {c : Settings} {b : Bank} {l : Live} (hb : l.active = b) (q : Patch)
    (h : (bankRecord c b q).valid = true → ∀ p, reads l p q = false) :
    clearPatch c (c.clearBank b) l q = clearedPatch (bankRecord c b) l q := by
  have hold : activeRecord c l q = bankRecord c b q := by rw [activeRecord, hb]
  have hnew := activeRecord_clearBank (c := c) hb q
  unfold clearPatch clearedPatch
  rw [hold]
  split
  · rename_i hv
    exact liveDelete_eq hnew (h hv)
  · rw [defaultFloor, hnew]
    rfl

/-- Eight deletions, none of whose rings is read: the fold of `clearedPatch`. -/
theorem foldl_clearPatch {c : Settings} {b : Bank} (qs : List Patch) {l : Live} (hb : l.active = b)
    (h : ∀ q, (bankRecord c b q).valid = true → ∀ p, reads l p q = false) :
    qs.foldl (clearPatch c (c.clearBank b)) l = qs.foldl (clearedPatch (bankRecord c b)) l := by
  induction qs generalizing l with
  | nil => rfl
  | cons q qs ih =>
    rw [List.foldl_cons, List.foldl_cons, clearPatch_eq hb q (h q)]
    exact ih ((clearedPatch_active _ _ _).trans hb) fun r hv p => (reads_clearedPatch _ _ _ _ _).trans (h r hv p)

/-! ### All patches -/

/-- What the deletions leave alone in the live state. -/
theorem foldl_clearedPatch_rest (old : Patch → PatchRec) (qs : List Patch) (l : Live) :
    OverridesKept l (qs.foldl (clearedPatch old) l) ∧ (qs.foldl (clearedPatch old) l).active = l.active ∧
      (qs.foldl (clearedPatch old) l).rx = l.rx ∧ (qs.foldl (clearedPatch old) l).switch = l.switch := by
  refine foldl_keeps (fun t => OverridesKept l t ∧ t.active = l.active ∧ t.rx = l.rx ∧ t.switch = l.switch) _
    (fun t q h => ?_) qs l ⟨⟨rfl, rfl, rfl, rfl, rfl⟩, rfl, rfl, rfl⟩
  unfold clearedPatch
  split
  · exact h
  · exact h

theorem clearedPatch_fla (old : Patch → PatchRec) (l : Live) (q r : Patch) :
    look (clearedPatch old l q).fla r = if r = q then FloorState.default .single else look l.fla r := by
  rw [← look_put]
  unfold clearedPatch
  split <;> rfl

theorem clearedPatch_rings (old : Patch → PatchRec) (l : Live) (q r : Patch) :
    look (clearedPatch old l q).rings r =
      if r = q ∧ (old q).valid = true then { look l.rings r with store := [] } else look l.rings r := by
  unfold clearedPatch
  split
  · rename_i hv
    simp only [deleted, look_put, hv, and_true]
    split
    · rename_i e; rw [e]
    · rfl
  · rename_i hv
    rw [if_neg fun h => hv h.2]
    rfl

theorem clearedPatch_tx (old : Patch → PatchRec) (l : Live) (q : Patch) (p : Port) :
    look (clearedPatch old l q).tx p = if (old q).valid then leftFault (old q) p (look l.tx p) else look l.tx p := by
  unfold clearedPatch
  split
  · simp only [deleted, look_mapTable]
  · rfl

theorem foldl_clearedPatch_fla (old : Patch → PatchRec) (qs : List Patch) (l : Live) {q : Patch} (hq : q ∈ qs) :
    look (qs.foldl (clearedPatch old) l).fla q = FloorState.default .single := by
  induction qs using List.reverseRecOn with
  | nil => simp at hq
  | append_singleton qs r ih =>
    rw [List.foldl_append, List.foldl_cons, List.foldl_nil, clearedPatch_fla]
    split
    · rfl
    · rename_i hr
      exact ih (by simpa [hr] using hq)

/-- A ring's head stays, and its content goes with a deletion of its patch's valid record. -/
theorem foldl_clearedPatch_rings (old : Patch → PatchRec) (qs : List Patch) (l : Live) (q : Patch) :
    look (qs.foldl (clearedPatch old) l).rings q =
      if q ∈ qs ∧ (old q).valid = true then { look l.rings q with store := [] } else look l.rings q := by
  induction qs using List.reverseRecOn with
  | nil => simp
  | append_singleton qs r ih =>
    rw [List.foldl_append, List.foldl_cons, List.foldl_nil, clearedPatch_rings, ih]
    by_cases hr : q = r <;> by_cases hv : (old q).valid = true <;> by_cases hm : q ∈ qs <;> simp_all

/-- A port in FAULT that stood in a deleted valid record is DORMANT; every other port is as it was. -/
theorem foldl_clearedPatch_tx (old : Patch → PatchRec) (qs : List Patch) (l : Live) (p : Port) :
    ((look l.tx p).state = .fault → (∃ q ∈ qs, (old q).valid = true ∧ StandsIn (old q) p) →
      (look (qs.foldl (clearedPatch old) l).tx p).state = .dormant) ∧
    ((look l.tx p).state ≠ .fault ∨ (∀ q ∈ qs, (old q).valid = true → ¬ StandsIn (old q) p) →
      look (qs.foldl (clearedPatch old) l).tx p = look l.tx p) := by
  induction qs generalizing l with
  | nil => simp
  | cons r qs ih =>
    have hstep := clearedPatch_tx old l r p
    have htail := ih (clearedPatch old l r)
    rw [List.foldl_cons]
    by_cases hr : (old r).valid = true ∧ StandsIn (old r) p
    · rw [if_pos hr.1] at hstep
      constructor
      · intro hf _
        have hdormant := leftFault_of_fault hr.2 hf
        rw [← hstep] at hdormant
        rw [htail.2 (.inl (by rw [hdormant]; simp)), hdormant]
      · rintro (hn | hall)
        · have hsame : look (clearedPatch old l r).tx p = look l.tx p := hstep.trans (leftFault_of_not (.inl hn))
          rw [htail.2 (.inl (by rwa [hsame])), hsame]
        · exact absurd hr.2 (hall r List.mem_cons_self hr.1)
    · have hsame : look (clearedPatch old l r).tx p = look l.tx p := by
        rw [hstep]
        split
        · rename_i hv
          exact leftFault_of_not (.inr fun hs => hr ⟨hv, hs⟩)
        · rfl
      rw [hsame] at htail
      refine ⟨fun hf ⟨q, hq, hv⟩ => htail.1 hf ?_, fun h => htail.2 (h.imp id fun hall q hq =>
        hall q (List.mem_cons_of_mem _ hq))⟩
      rcases List.mem_cons.1 hq with rfl | hq
      · exact absurd hv hr
      · exact ⟨q, hq, hv⟩

/-- What CLEAR BANK leaves of the live state, in the words of the statement. -/
theorem cleared_meets {c : Settings} {l t : Live} (old : Patch → PatchRec)
    (ht : t = recordRaised c (allPatches.foldl (clearedPatch old) l)) :
    OverridesKept l t ∧ t.active = l.active ∧
      (∀ q : Patch, look t.fla q = FloorState.default .single ∧
        ((old q).valid = true → look t.rings q = { store := [], head := (look l.rings q).head })) ∧
      (∀ (p : Port) (q : Patch), (look l.tx p).state = .fault → (old q).valid = true → StandsIn (old q) p →
        (look t.tx p).state = .dormant) ∧
      (∀ p : Port, (look l.tx p).state ≠ .fault ∨ (∀ q : Patch, (old q).valid = true → ¬ StandsIn (old q) p) →
        look t.tx p = look l.tx p) ∧
      ∀ p : Port, (look t.rx p).rx = (look l.rx p).rx := by
  obtain ⟨⟨hovr, hlamps, hholder, hqueue, hgen⟩, hactive, hrx, -⟩ := foldl_clearedPatch_rest old allPatches l
  subst ht
  simp only [OverridesKept, recordRaised_ovr, recordRaised_lamps, recordRaised_guestHolder, recordRaised_guestQueue,
    recordRaised_gen, recordRaised_active, recordRaised_fla, recordRaised_rings, recordRaised_tx, recordRaised_rx, hovr,
    hlamps, hholder, hqueue, hgen, hactive, hrx]
  refine ⟨⟨trivial, trivial, trivial, trivial, trivial⟩, trivial, fun q => ⟨?_, fun hv => ?_⟩, fun p q hf hv hs => ?_,
    fun p h => ?_, fun _ => trivial⟩
  · exact foldl_clearedPatch_fla old allPatches l (mem_allPatches q)
  · rw [foldl_clearedPatch_rings, if_pos ⟨mem_allPatches q, hv⟩]
  · exact (foldl_clearedPatch_tx old allPatches l p).1 hf ⟨q, mem_allPatches q, hv, hs⟩
  · exact (foldl_clearedPatch_tx old allPatches l p).2 (h.imp id fun hall q _ => hall q)

/-! ### CLEAR BANK -/

theorem orderClearBank_good (sel : BankSel) (c : Settings) (l : Live) :
    orderClearBank [bankByte sel] c l =
      match firstRefusal
        [(switchPending l, .pending),
         (isActiveSel sel && allPatches.any (fun q => protectedIn c (activeRecord c l q)), .protectedPort),
         (isActiveSel sel && !allPatches.all (idle c l), .busy)] with
      | some st => refuse st c l
      | none =>
        { cfg := c.clearBank (resolveBank l sel)
          live := if isActiveSel sel then
              closeEvent (c.clearBank (resolveBank l sel))
                (allPatches.foldl (clearPatch c (c.clearBank (resolveBank l sel))) l)
            else l
          status := .done
          data := [] } := by
  have h0 : byteAt [bankByte sel] 0 = (bankByte sel).toNat := rfl
  unfold orderClearBank
  rw [if_neg (by simp), h0, readBank_bankByte] <;> rfl

theorem orderClearBank_bad {sel : Byte} (h : 1 < sel.toNat) (c : Settings) (l : Live) :
    orderClearBank [sel] c l = refuse .range c l := by
  have h0 : byteAt [sel] 0 = sel.toNat := rfl
  unfold orderClearBank
  rw [if_neg (by simp), h0, readBank_none h]

theorem orderClearBank_pending (sel : BankSel) {c : Settings} {l : Live} (hp : l.switch.state = .pending) :
    orderClearBank [bankByte sel] c l = refuse .pending c l := by
  rw [orderClearBank_good, switchPending_iff.2 hp]
  rfl

theorem orderClearBank_standby {c : Settings} {l : Live} {b : Bank} (hb : standbyBank l.active = b)
    (hn : l.switch.state = .none) :
    orderClearBank [bankByte .standby] c l = { cfg := c.clearBank b, live := l, status := .done, data := [] } := by
  rw [orderClearBank_good, switchPending_false hn, ← hb]
  rfl

theorem any_protected_iff {c : Settings} {l : Live} {b : Bank} (hb : l.active = b) :
    allPatches.any (fun q => protectedIn c (activeRecord c l q)) = true ↔
      ∃ q : Patch, HasProtected c (bankRecord c b q) := by
  simp only [List.any_eq_true, mem_allPatches, true_and, activeRecord, hb, protectedIn_iff]

theorem all_idle_iff {c : Settings} {l : Live} : allPatches.all (idle c l) = true ↔ ∀ q : Patch, Idle c l q := by
  simp only [List.all_eq_true, mem_allPatches, true_implies, idle_iff]

section Active

variable {c : Settings} {l : Live} {b : Bank} (hb : l.active = b) (hn : l.switch.state = .none)
include hb hn

theorem orderClearBank_protected (hp : ∃ q : Patch, HasProtected c (bankRecord c b q)) :
    orderClearBank [bankByte .active] c l = refuse .protectedPort c l := by
  rw [orderClearBank_good, switchPending_false hn, (any_protected_iff hb).2 hp]
  rfl

theorem orderClearBank_busy (hp : ¬ ∃ q : Patch, HasProtected c (bankRecord c b q)) (hi : ∃ q : Patch, ¬ Idle c l q) :
    orderClearBank [bankByte .active] c l = refuse .busy c l := by
  rw [← any_protected_iff hb, Bool.not_eq_true] at hp
  rw [← not_forall, ← all_idle_iff, Bool.not_eq_true] at hi
  rw [orderClearBank_good, switchPending_false hn, hp, hi]
  rfl

theorem orderClearBank_active (hp : ¬ ∃ q : Patch, HasProtected c (bankRecord c b q)) (hi : ∀ q : Patch, Idle c l q) :
    orderClearBank [bankByte .active] c l =
      { cfg := c.clearBank b
        live := recordRaised (c.clearBank b) (allPatches.foldl (clearedPatch (bankRecord c b)) l)
        status := .done
        data := [] } := by
  have hread : ∀ q, (bankRecord c b q).valid = true → ∀ p, reads l p q = false := fun q hv =>
    reads_of_idle (hi q) (by rw [activeRecord, hb]; exact hv)
  have hrest := foldl_clearedPatch_rest (bankRecord c b) allPatches l
  rw [← any_protected_iff hb, Bool.not_eq_true] at hp
  rw [orderClearBank_good, switchPending_false hn, hp, all_idle_iff.2 hi,
    ← closeEvent_notPending _ _ (switchPending_false (by rw [hrest.2.2.2, hn])), ← foldl_clearPatch allPatches hb hread,
    ← hb]
  rfl

end Active

theorem clearBank_answers {s : State} {body : List Byte} (h : Holds s 0x24 body) :
    exec (.clearBank body) s = .next (answered 0x24 (orderClearBank body s.cfg (catchUp s).live) (catchUp s)) :=
  congrArg Host.Outcome.next (carryOut_of_holds _ h)

/-- Settles O34: the checks, and then eight deletions whose rings nobody reads. -/
theorem clearBankClearsEveryRecord : Obligations.ClearBankClearsEveryRecord := by
  refine ⟨fun sel s hsel h => ?_, fun sel s hbad h => ?_⟩ <;>
    have hans := clearBank_answers h <;>
    have hcfg := catchUp_cfg s <;>
    have hactive := catchUp_active s <;>
    have hswitch := catchUp_switch s <;>
    dsimp only [Refuses] <;>
    generalize catchUp s = u at *
  case refine_2 => exact answers_refusal .range hans hcfg (orderClearBank_bad hbad _ _)
  rw [← hswitch]
  rcases eq_zero_or_one hsel with rfl | rfl
  · simp only [bankOf_zero]
    refine ⟨fun hp => answers_refusal .pending hans hcfg (orderClearBank_pending .active hp),
      fun hn _ hp => answers_refusal .protectedPort hans hcfg (orderClearBank_protected hactive hn hp),
      fun hn _ hp hi => answers_refusal .busy hans hcfg (orderClearBank_busy hactive hn hp hi),
      fun _ h0 => absurd rfl h0, fun hn _ hp hi => ?_⟩
    have horder := orderClearBank_active hactive hn hp hi
    exact ⟨_, answers_result hans horder, cleared_meets (bankRecord s.cfg s.live.active) rfl⟩
  · refine ⟨fun hp => answers_refusal .pending hans hcfg (orderClearBank_pending .standby hp),
      fun _ h0 => absurd h0 (by decide), fun _ h0 => absurd h0 (by decide), fun hn _ => ?_,
      fun _ h0 => absurd h0 (by decide)⟩
    exact answers_result hans (orderClearBank_standby (congrArg standbyBank hactive) hn)

end Sys2Proof.BankClearing

/-! SUPPORT. The states that refute the statements on DEFINE PATCH and SET MEMBER, and what the model makes of them. -/

namespace Sys2Proof.Counterexamples

open Sys2Proof.Machine Sys2Proof.Safety Sys2Proof.Claims Sys2Proof.Patches Sys2Proof.PlanLaws

set_option maxRecDepth 100000

/-! ### States -/

/-- A member with unity gains and no override. -/
def memberOf (p : Port) (listen talk : Bool) (rank : Fin 16) : MemberRec :=
  { port := p, listen := listen, talk := talk, rank := rank, inGain := 64, outGain := 64, keyUp := none }

/-- A record that mixes, with these members in its first lanes. -/
def recordOf (valid : Bool) (ms : List MemberRec) : PatchRec :=
  { valid := valid, mode := .mix, lanes := Vector.ofFn (fun n => ms[n.val]?) }

/-- A patch has this context, and these ports are its claimants and RX_ACTIVE. -/
def talkingIn (q : Patch) (ctx : Context) (ps : List Port) (l : Live) : Live :=
  ps.foldl (fun l p => l.setRx p { look l.rx p with rx := .active })
    (l.setFloor q { ctx := ctx, freezing := false, claimants := ps })

/-- The ORU holds an order that is due, over these settings and this live state. -/
def ordered (kind : Byte) (body : List Byte) (c : Settings) (l : Live) : State :=
  { State.reset with
    cfg := c
    live := l
    mci := { Channel.fresh with oru := some { kind := kind, body := body, due := true }, replies := [.reserved] } }

/-- The ring work of the frame is done and the live state is settled: the order is carried out on the state as it is. -/
theorem atOrder_ordered {i : Instr} {kind : Byte} {body : List Byte} {c : Settings} {l : Live}
    (hi : ∀ s, atOrder i s = catchUp (finishRing s)) (hl : catchUpLive c l = l) :
    (atOrder i (ordered kind body c l)).live = l := by
  have hring : finishRing (ordered kind body c l) = ordered kind body c l := rfl
  rw [hi, hring, catchUp_live]
  exact hl

/-! ### Checks -/

/-- The live state a command leaves. -/
def liveAfter (i : Instr) (s : State) : Option Live :=
  match exec i s with
  | .next t => some t.live
  | .fault _ => none
  | .refused _ => none

theorem liveAfter_of_answers {i : Instr} {s u : State} {kind code : Byte} {data : List Byte} {c : Settings} {l : Live}
    (h : Answers i s (withReply kind code data (withCore c l u))) : liveAfter i s = some l := by
  unfold liveAfter
  rw [h]
  rfl

theorem recordInRange_of_all {r : PatchRec} (h : ∀ n : Lane, (look r.lanes n).all memberInRange = true) :
    recordInRange r := by
  intro n m hm
  have hn := h n
  rwa [hm] at hn

/-- A plan of one valid record in a bank that stands at power-on. -/
theorem lawful_single {q : Patch} {r : PatchRec} (h1 : oneLaneEach r)
    (h2 : ∀ n : Lane, (look r.lanes n).all memberInRange = true) : Lawful (Settings.powerOn.setRecord 0 q r) :=
  lawful_powerOn.setRecord h1 (recordInRange_of_all h2) fun _ p _ ⟨x, _, hv, _⟩ => by
    rw [bankRecord_powerOn] at hv
    exact absurd hv (by decide)

/-! ### DEFINE PATCH -/

/-- P1 mixes RP3 and RP4; RP4 stands in the record of P2 too, which is not valid. -/
def restrictedPlan : Settings :=
  (Settings.powerOn.setRecord 0 1 (recordOf true [memberOf 3 true true 1, memberOf 4 true true 2])).setRecord 0 2
    (recordOf false [memberOf 4 true true 2])

/-- RP3 talks in P1, to which RP4, in FAULT, lays claim too. The context of P1 restricts the floor to RP5, as only that
of a mayday may: the floor law excludes such a context, and the premises do not ask it. -/
def restrictedLive : Live :=
  (talkingIn 1 { mode := .mix, floor := [3], restriction := some 5, source := .receive } [3, 4] State.reset.live).setTx 4
    { TxPort.dormant with state := .fault }

/-- P2 is defined with the cleared record, which frees RP4. -/
abbrev clearingBody : List Byte := [0, BitVec.ofNat 8 (2 : Patch).val] ++ recordBytes PatchRec.cleared

def restricted : State := ordered 0x21 clearingBody restrictedPlan restrictedLive

theorem restricted_settled : catchUpLive restrictedPlan restrictedLive = restrictedLive := by decide

theorem lawful_restrictedPlan : Lawful restrictedPlan :=
  (lawful_single (not_repeatsPort (by decide)) (by decide)).setRecord (not_repeatsPort (by decide))
    (recordInRange_of_all (by decide)) fun h => absurd h (by decide)

theorem followPremises_restricted : FollowPremises restrictedPlan restrictedLive := by
  refine ⟨lawful_restrictedPlan.1, lawful_restrictedPlan.2, ?claims, ?grants, ?ignored, ?following⟩
  case claims => unfold ClaimLaw; decide
  case grants => unfold GrantLaw; decide
  case ignored => unfold IgnoredLaw; decide
  case following => decide

/-- RP4 stays KEYING on the ring of P1, whose floor its own release has emptied. -/
theorem restricted_leaves : (liveAfter (.definePatch clearingBody) restricted).all (fun l =>
    decide (entitledRing (withRecord restrictedPlan 0 2 (storedRecord PatchRec.cleared)) l 4 = some 1) &&
      !writerActive l 1 && decide ((look l.tx 4).state = .keying)) = true := by decide

theorem restricted_not_keyedOrDormant {l : Live} (h : liveAfter (.definePatch clearingBody) restricted = some l) :
    ¬ KeyedOrDormant (withRecord restrictedPlan 0 2 (storedRecord PatchRec.cleared)) l 4 TxPort.dormant := by
  have hleaves := restricted_leaves
  rw [h] at hleaves
  simp only [Option.all_some, Bool.and_eq_true, decide_eq_true_eq, Bool.not_eq_true'] at hleaves
  obtain ⟨⟨hring, hwriter⟩, hkeying⟩ := hleaves
  intro hfollows
  have hdormant := hfollows.2 fun q hq => by rwa [← Option.some.inj (hring.symm.trans hq)]
  rw [hdormant] at hkeying
  exact absurd hkeying (by decide)

/-- Refutes O31: a port freed from FAULT keys on the ring of a patch whose restricted floor its own release then
empties, and stays KEYING without an active writer. -/
theorem not_definePatchWritesTheRecord : ¬ Obligations.DefinePatchWritesTheRecord := by
  intro h
  have hu : (atOrder (.definePatch clearingBody) restricted).live = restrictedLive :=
    atOrder_ordered (fun _ => rfl) restricted_settled
  obtain ⟨-, -, -, -, -, hlive⟩ := h.1 0 2 PatchRec.cleared restricted (by decide) (fun n m hm => by simp at hm) rfl
  have hcarried := hlive rfl (by decide) (by rw [hu]; decide) (by decide) rfl
  obtain ⟨l, hans, -, -, -, -, -, -, -, -, -, hfollow⟩ := hcarried
  obtain ⟨-, -, -, hports⟩ := hfollow (by rw [hu]; exact followPremises_restricted)
  have hfreed := (hports 4).1 ⟨by rw [hu]; decide, by decide, by decide⟩
  exact restricted_not_keyedOrDormant (liveAfter_of_answers hans) hfreed.1

/-! ### SET MEMBER -/

/-- P0 and P1 mix; in each three ports have TALK, and in P0 the last has LISTEN too. -/
def twoMixesPlan : Settings :=
  (Settings.powerOn.setRecord 0 0
    (recordOf true [memberOf 0 false true 1, memberOf 1 false true 2, memberOf 2 true true 3])).setRecord 0 1
      (recordOf true [memberOf 3 false true 1, memberOf 4 false true 2, memberOf 5 false true 3])

/-- The floor of a patch that mixes, with one talker. -/
def oneTalker (p : Port) : Context := { mode := .mix, floor := [p], restriction := none, source := .receive }

/-- In both patches one of three claimants talks, and no transmit machine has followed: RP2 has yet to key in P0. -/
def twoMixesLive : Live :=
  talkingIn 1 (oneTalker 3) [3, 4, 5] (talkingIn 0 (oneTalker 0) [0, 1, 2] State.reset.live)

/-- The lane of RP5 in P1 with LISTEN added. -/
def listeningLane : Option MemberRec := some (memberOf 5 true true 3)

abbrev listeningBody : List Byte :=
  [0, BitVec.ofNat 8 (1 : Patch).val, BitVec.ofNat 8 (2 : Lane).val] ++ laneBytes listeningLane

def twoMixes : State := ordered 0x22 listeningBody twoMixesPlan twoMixesLive

/-- The settings with that lane written. -/
abbrev editedPlan : Settings :=
  withRecord twoMixesPlan 0 1
    { bankRecord twoMixesPlan 0 1 with
      lanes := put (bankRecord twoMixesPlan 0 1).lanes 2 (listeningLane.map storedMember) }

theorem twoMixes_settled : catchUpLive twoMixesPlan twoMixesLive = twoMixesLive := by decide

theorem lawful_twoMixesPlan : Lawful twoMixesPlan :=
  (lawful_single (not_repeatsPort (by decide)) (by decide)).setRecord (not_repeatsPort (by decide))
    (recordInRange_of_all (by decide)) fun _ => by decide

theorem floorLaw_twoMixes : FloorLaw twoMixesLive := by unfold FloorLaw; decide

theorem grantLaw_twoMixes : GrantLaw twoMixesLive := by unfold GrantLaw; decide

theorem claimLaw_twoMixes : ClaimLaw twoMixesPlan twoMixesLive := by unfold ClaimLaw; decide

/-- RP2 in P0 and RP5 in P1 key and release in one settlement, and P0 alone selects again. -/
theorem twoMixes_leaves : (liveAfter (.setMember listeningBody) twoMixes).all (fun l =>
    decide (5 ∉ claimantsOf l 1) && decide ((ctxOf l 1).floor ≠ fourLowest editedPlan l 1)) = true := by decide

theorem twoMixes_not_editedFloor {l : Live} (h : liveAfter (.setMember listeningBody) twoMixes = some l) :
    ¬ EditedFloor editedPlan 1 (look (bankRecord twoMixesPlan 0 1).lanes 2) (listeningLane.map storedMember)
      twoMixesLive l := by
  have hleaves := twoMixes_leaves
  rw [h] at hleaves
  simp only [Option.all_some, Bool.and_eq_true, decide_eq_true_eq] at hleaves
  obtain ⟨hreleased, hfloor⟩ := hleaves
  rintro ⟨-, -, -, -, hmix⟩
  have hselects := hmix (by decide) (by unfold Arbitrates; decide)
  exact hfloor (hselects.2 ⟨5, by decide, hreleased⟩)

/-- Refutes O32: the listener added to P1 keys and releases its claim in the settlement in which RP2 does so in P0,
and P1, which mixes, is not selected for again: it keeps one talker where two ports claim. -/
theorem not_setMemberEditsOneLane : ¬ Obligations.SetMemberEditsOneLane := by
  intro h
  have hu : (atOrder (.setMember listeningBody) twoMixes).live = twoMixesLive :=
    atOrder_ordered (fun _ => rfl) twoMixes_settled
  obtain ⟨-, -, -, -, -, -, hlive⟩ := h.1 0 1 2 listeningLane twoMixes (by decide) (by decide) rfl
  have hcarried := hlive rfl (by decide) (by rw [hu]; decide) (by decide) rfl (by decide) (by decide) (by decide)
  obtain ⟨l, hans, -, -, -, -, hedited, -⟩ := hcarried
  rw [hu] at hedited
  obtain ⟨hfloor, -, -⟩ := hedited lawful_twoMixesPlan.1 lawful_twoMixesPlan.2 floorLaw_twoMixes grantLaw_twoMixes
    claimLaw_twoMixes (by decide) (by decide)
  exact twoMixes_not_editedFloor (liveAfter_of_answers hans) hfloor

end Sys2Proof.Counterexamples

/-! SUPPORT. The states that refute the statements on the events of a port, a pending switch and maydays, and what the
model makes of them. -/

namespace Sys2Proof.PortCounterexamples

open Sys2Proof.Machine Sys2Proof.Safety Sys2Proof.Claims Sys2Proof.Patches Sys2Proof.PlanLaws
  Sys2Proof.Counterexamples

set_option maxRecDepth 100000

theorem liveAfter_of_next {i : Instr} {s t : State} (h : Answers i s t) : liveAfter i s = some t.live := by
  unfold liveAfter
  rw [h]

/-- A transmit machine ON_AIR in the ring of `q`, its end mark at the head: the hang is found at the next service. -/
def strandedOn (q : Patch) : TxPort :=
  { TxPort.dormant with state := .onAir, reader := some { ring := q, cursor := 0, endMark := some 0 } }

/-! ### The events of a port -/

/-- RP0 has TALK in P0 and C0 in P1; C0 is set to HALF, as no SET PORT does: the settings law excludes it, and the
premises do not ask it. -/
def halfConsolePlan : Settings :=
  let c := (Settings.powerOn.setRecord 0 0 (recordOf true [memberOf 0 false true 1])).setRecord 0 1
    (recordOf true [memberOf 16 false true 1])
  { c with ports := put c.ports 16 { PortRec.powerOn 16 with duplex := .half } }

/-- C0 talks in P1, P0 holds the guest resource, and a rise of the COR of RP0 has settled. -/
def halfConsoleLive : Live :=
  let l := talkingIn 1 { mode := .mix, floor := [16], restriction := none, source := .receive } [16] State.reset.live
  { l.setRx 0 { look l.rx 0 with cor := { Debounce.unused with due := some true } } with guestHolder := some 0 }

def halfConsole : State := { State.reset with cfg := halfConsolePlan, live := halfConsoleLive }

theorem halfConsole_settled : (catchUp halfConsole).live = halfConsoleLive := by decide

theorem planLaw_halfConsole : PlanLaw halfConsolePlan :=
  ((lawful_single (not_repeatsPort (by decide)) (by decide)).setRecord (not_repeatsPort (by decide))
    (recordInRange_of_all (by decide)) fun _ => by decide).1

theorem claimLaw_halfConsole : ClaimLaw halfConsolePlan halfConsoleLive := by unfold ClaimLaw; decide

theorem following_halfConsole : Following halfConsolePlan halfConsoleLive := by decide

/-- RP0 claims the floor of P0; C0 keys there as a guest, its COR is ignored, and it leaves the floor of P1. -/
theorem halfConsole_leaves : (liveAfter (.corSettledRise 0) halfConsole).all (fun l =>
    decide (look l.fla 1 ≠ look halfConsoleLive.fla 1)) = true := by decide

/-- Refutes O46: without the settings law a console may ignore its COR as it keys as a guest, and so an event of a port
of the guest patch releases a claim in the console's own patch. -/
theorem not_portEventsKeepTheRest : ¬ Obligations.PortEventsKeepTheRest := by
  intro h
  obtain ⟨t, hans, -, -, -, -, -, -, -, -, -, -, hrest⟩ := h 0 (.corSettledRise 0) halfConsole (by simp)
  have hkept := hrest rfl planLaw_halfConsole claimLaw_halfConsole
    (by rw [halfConsole_settled]; exact following_halfConsole)
  have hfloor := hkept.1 1 (by rw [halfConsole_settled]; decide)
  rw [halfConsole_settled] at hfloor
  have hleaves := halfConsole_leaves
  rw [liveAfter_of_next hans, Option.all_some, decide_eq_true_eq] at hleaves
  exact hleaves hfloor


/-! ### The pending switch -/

/-- P0 gives C0 TALK, P1 gives RP3 TALK. -/
def abortPlan : Settings :=
  (Settings.powerOn.setRecord 0 0 (recordOf true [memberOf 16 false true 1])).setRecord 0 1
    (recordOf true [memberOf 3 false true 1])

/-- A switch that involves P0 and P1 is pending. P1 holds the guest resource and its context restricts a MIX floor, which
the floor law excludes and the premises do not. C0 claims in P0 and reads its ring still; C1 is in FAULT. -/
def abortLive : Live :=
  let l := talkingIn 1 { mode := .mix, floor := [3], restriction := some 5, source := .receive } [3]
    (talkingIn 0 (Context.default .single) [16] State.reset.live)
  { (l.setTx 16 (strandedOn 0)).setTx 17 { TxPort.dormant with state := .fault } with
    guestHolder := some 1
    switch := { SwitchCtl.fresh with state := .pending, involved := [0, 1], grace := some 8 } }

def aborting : State := ordered 0x31 [] abortPlan abortLive

theorem aborting_settled : (catchUp aborting).live = abortLive := by decide

theorem lawful_abortPlan : Lawful abortPlan :=
  (lawful_single (not_repeatsPort (by decide)) (by decide)).setRecord (not_repeatsPort (by decide))
    (recordInRange_of_all (by decide)) fun _ => by decide

theorem claimLaw_aborting : ClaimLaw abortPlan abortLive := by unfold ClaimLaw; decide

theorem grantLaw_aborting : GrantLaw abortLive := by unfold GrantLaw; decide

theorem following_aborting : Following abortPlan abortLive := by decide

/-- Granted the floor of P0, C0 is unkeyed and keys as a guest in P1, whose floor then empties: C0 stays KEYING. -/
theorem aborting_leaves : (liveAfter (.abortSwitch []) aborting).all (fun l =>
    decide (entitledRing abortPlan l 16 = some 1) && !writerActive l 1 && decide ((look l.tx 16).state = .keying) &&
      decide (16 ∈ (ctxOf l 0).floor)) = true := by decide

theorem aborting_not_follows {l : Live} (h : liveAfter (.abortSwitch []) aborting = some l) :
    ¬ FollowsAt abortPlan abortLive l 16 := by
  have hleaves := aborting_leaves
  rw [h] at hleaves
  simp only [Option.all_some, Bool.and_eq_true, decide_eq_true_eq, Bool.not_eq_true'] at hleaves
  obtain ⟨⟨⟨hring, hwriter⟩, hkeying⟩, hfloor⟩ := hleaves
  rintro ⟨-, -, hreads⟩
  obtain ⟨hgranted, -⟩ := hreads { ring := 0, cursor := 0, endMark := some 0 } (by decide) (by decide)
  have hdormant := (hgranted hfloor).2 fun q hq => by rwa [← Option.some.inj (hring.symm.trans hq)]
  rw [hdormant] at hkeying
  exact absurd hkeying (by decide)

/-- Refutes O36: a console that the aborted switch grants its floor keys as a guest on the ring of a patch whose
restricted floor the arbitration then empties, and stays KEYING without an active writer. -/
theorem not_pendingSwitchIsSwappedForcedOrAborted : ¬ Obligations.PendingSwitchIsSwappedForcedOrAborted := by
  rintro ⟨-, -, -, -, habort⟩
  obtain ⟨l, hans, -, -, -, -, -, -, -, hfollows, -⟩ := (habort aborting rfl).2 rfl
  rw [aborting_settled] at hfollows
  exact aborting_not_follows (liveAfter_of_next hans)
    (hfollows lawful_abortPlan.1 lawful_abortPlan.2 claimLaw_aborting grantLaw_aborting following_aborting 16)


/-! ### Mayday -/

/-- The record of P0: RP0 has TALK, RP1 listens. -/
def maydayRecord : PatchRec := recordOf true [memberOf 0 false true 1, memberOf 1 true false 2]

/-- P0 has the same record in both banks; the records of P1 differ. -/
def maydayPlan : Settings :=
  ((Settings.powerOn.setRecord 0 0 maydayRecord).setRecord 1 0 maydayRecord).setRecord 1 1 (recordOf true [])

/-- RP1 reads the ring of P1, to which it is not entitled any more. A switch that involves P1 alone is pending; the
expiry of its grace timer is due and goes before the idle test. -/
def strandedLive : Live :=
  { ((State.reset.live.setTx 1 (strandedOn 1)).setFreezing 1 true) with
    switch := { SwitchCtl.fresh with state := .pending, involved := [1], grace := some 0, graceFirst := true } }

theorem lawful_maydayPlan : Lawful maydayPlan :=
  ((lawful_single (not_repeatsPort (by decide)) (by decide)).setRecord (not_repeatsPort (by decide))
    (recordInRange_of_all (by decide)) fun _ => by decide).setRecord (not_repeatsPort (by decide))
      (recordInRange_of_all (by decide)) fun _ => by decide

theorem switchLaw_stranded : SwitchLaw strandedLive := by unfold SwitchLaw; decide

theorem guestPremises_stranded : GuestPremises maydayPlan strandedLive := by
  refine ⟨lawful_maydayPlan.1, lawful_maydayPlan.2, ?floors, ?grants, switchLaw_stranded, ?pending, ?overrides, ?claims⟩
  case floors => unfold FloorLaw; decide
  case grants => unfold GrantLaw; decide
  case pending => unfold PendingLaw; decide
  case overrides => unfold OverrideLaw; decide
  case claims => unfold ClaimLaw; decide

theorem following_stranded : Following maydayPlan strandedLive := by decide

/-- A port that reads a ring to which it is not entitled, and is on no floor there, is not unkeyed as it follows. -/
theorem not_followsAt_of_dormant {c : Settings} {before after : Live} {p : Port} {z : Reader}
    (hreads : (look before.tx p).reader = some z) (hkeyed : keyed (look before.tx p) = true)
    (hfloor : p ∉ (ctxOf after z.ring).floor) (hentitled : entitled c after p z.ring = false)
    (hdormant : (look after.tx p).reader = none) : ¬ FollowsAt c before after p := by
  rintro ⟨-, -, hfollows⟩
  obtain ⟨-, -, -, hmarked⟩ := hfollows z hreads hkeyed
  rw [hmarked hfloor hentitled] at hdormant
  exact absurd hdormant (by simp)

/-- RP1 reads nothing, though no floor has unkeyed it. -/
def cutOff (l : Live) : Bool :=
  decide ((look l.tx 1).reader = none) && !entitled maydayPlan l 1 1 && !(ctxOf l 1).floor.contains 1

theorem not_followsAt_of_cutOff {before l : Live} (hbefore : look before.tx 1 = strandedOn 1) (h : cutOff l = true) :
    ¬ FollowsAt maydayPlan before l 1 := by
  simp only [cutOff, Bool.and_eq_true, decide_eq_true_eq, Bool.not_eq_true', List.contains_eq_mem,
    decide_eq_false_iff_not] at h
  obtain ⟨⟨hnone, hentitled⟩, hfloor⟩ := h
  exact not_followsAt_of_dormant (z := { ring := 1, cursor := 0, endMark := some 0 }) (by rw [hbefore]; rfl)
    (by rw [hbefore]; rfl) hfloor hentitled hnone

/-- A restriction set on P0 where the floor is empty takes no place from a port. -/
theorem not_followsRestriction_of_cutOff {before l : Live} (hbefore : look before.tx 1 = strandedOn 1)
    (hempty : (ctxOf before 0).floor = []) (h : cutOff l = true) : ¬ FollowsRestriction maydayPlan 0 before l 1 := by
  rintro ⟨-, -, hfollows⟩
  exact not_followsAt_of_cutOff hbefore h (hfollows fun ⟨hlost, _⟩ => by rw [hempty] at hlost; simp at hlost)

abbrev declaring : State := ordered 0x40 [0] maydayPlan strandedLive

theorem declaring_settled : (catchUp declaring).live = strandedLive := by decide

theorem declaring_cutsOff : (liveAfter (.declareMayday [0]) declaring).all cutOff = true := by decide

/-- Refutes O37: the order ends with the idle test of a pending switch that does not involve the patch, the grace
timer's expiry goes first, and the forced switch unkeys a port that the mayday does not. -/
theorem not_declareMaydayBeginsLatchesOrRefuses : ¬ Obligations.DeclareMaydayBeginsLatchesOrRefuses := by
  rintro ⟨hdeclare, -⟩
  obtain ⟨-, -, -, -, hbegins⟩ := hdeclare 0 declaring rfl
  rw [declaring_settled] at hbegins
  obtain ⟨l, hans, hbegun⟩ := hbegins 0 switchLaw_stranded (by decide) (by decide) (by decide)
  obtain ⟨-, -, -, -, -, -, -, -, -, -, -, ⟨-, hfollows⟩, -⟩ := hbegun
  have hafter : liveAfter (.declareMayday [0]) declaring = some l := liveAfter_of_next hans
  have hcut := declaring_cutsOff
  rw [hafter] at hcut
  exact not_followsRestriction_of_cutOff rfl rfl hcut
    (hfollows guestPremises_stranded following_stranded 1 (by decide) (.inr (by decide)))

/-- A rise of the EMG of RP0 has settled. -/
def risingLive : Live :=
  strandedLive.setRx 0 { look strandedLive.rx 0 with emg := { Debounce.unused with due := some true } }

def rising : State := { State.reset with cfg := maydayPlan, live := risingLive }

theorem rising_settled : (catchUp rising).live = risingLive := by decide

/-- The state over which the mayday begins: the level of RP0 is HIGH, and EMERG is to be recorded. -/
def risenLive : Live :=
  { risingLive.setRx 0 { look risingLive.rx 0 with emg := Debounce.settled true } with
    raised := risingLive.raised ++ [(portSource 0, .emerg)] }

theorem switchLaw_risen : SwitchLaw risenLive := by unfold SwitchLaw; decide

theorem guestPremises_risen : GuestPremises maydayPlan risenLive := by
  refine ⟨lawful_maydayPlan.1, lawful_maydayPlan.2, ?floors, ?grants, switchLaw_risen, ?pending, ?overrides, ?claims⟩
  case floors => unfold FloorLaw; decide
  case grants => unfold GrantLaw; decide
  case pending => unfold PendingLaw; decide
  case overrides => unfold OverrideLaw; decide
  case claims => unfold ClaimLaw; decide

theorem following_risen : Following maydayPlan risenLive := by decide

theorem rising_cutsOff : (liveAfter (.emergencyRise 0) rising).all cutOff = true := by decide

/-- Refutes O38: as with DECLARE MAYDAY, the event that begins the mayday ends with the idle test, and the switch forced
there unkeys a port that the mayday does not. -/
theorem not_emergencyRiseIsAnEmergencyEvent : ¬ Obligations.EmergencyRiseIsAnEmergencyEvent := by
  intro h
  obtain ⟨-, -, hbegins⟩ := h 0 rising (by decide)
  rw [rising_settled] at hbegins
  obtain ⟨l, hans, -, hbegun⟩ := hbegins 0 (by unfold SwitchLaw; decide) (by decide) (by decide) (by decide)
  obtain ⟨-, -, -, -, -, -, -, -, -, -, -, ⟨-, hfollows⟩, -⟩ := hbegun
  have hcut := rising_cutsOff
  rw [liveAfter_of_next hans] at hcut
  exact not_followsRestriction_of_cutOff rfl rfl hcut
    (hfollows guestPremises_risen following_risen 1 (by decide) (.inr (by decide)))

/-- P0 is under the mayday of RP0, that no port claims, and holds the guest resource; RP1 as before. -/
def underMaydayLive : Live :=
  { ((strandedLive.setCtx 0 { Context.default .single with restriction := some 0 }).setOvr 0
      { OverrideState.empty with save1 := some (Context.default .single), mayday := some 0 }).setLamp 0 true with
    guestHolder := some 0 }

abbrev clearing : State := ordered 0x41 [0] maydayPlan underMaydayLive

theorem clearing_settled : (catchUp clearing).live = underMaydayLive := by decide

theorem switchLaw_underMayday : SwitchLaw underMaydayLive := by unfold SwitchLaw; decide

theorem portLaw_underMayday : PortLaw underMaydayLive := by unfold PortLaw; decide

theorem guestPremises_underMayday : GuestPremises maydayPlan underMaydayLive := by
  refine ⟨lawful_maydayPlan.1, lawful_maydayPlan.2, ?floors, ?grants, switchLaw_underMayday, ?pending, ?overrides,
    ?claims⟩
  case floors => unfold FloorLaw; decide
  case grants => unfold GrantLaw; decide
  case pending => unfold PendingLaw; decide
  case overrides => unfold OverrideLaw; decide
  case claims => unfold ClaimLaw; decide

theorem following_underMayday : Following maydayPlan underMaydayLive := by decide

theorem clearing_cutsOff : (liveAfter (.clearMayday [0]) clearing).all cutOff = true := by decide

/-- Refutes O39: the order ends with the idle test of a pending switch that does not involve the patch, and the switch
forced there unkeys a port that the end of the mayday does not. -/
theorem not_clearMaydayEndsTheMayday : ¬ Obligations.ClearMaydayEndsTheMayday := by
  rintro ⟨hclear, -⟩
  obtain ⟨-, -, hends⟩ := hclear 0 clearing rfl
  rw [clearing_settled] at hends
  obtain ⟨l, hans, hended⟩ := hends 0 switchLaw_underMayday (by decide) (by decide)
  obtain ⟨-, -, -, -, -, -, -, -, -, -, hfollows, -⟩ := hended
  have hafter : liveAfter (.clearMayday [0]) clearing = some l := liveAfter_of_next hans
  have hcut := clearing_cutsOff
  rw [hafter] at hcut
  obtain ⟨-, hfollows⟩ := hfollows guestPremises_underMayday portLaw_underMayday following_underMayday _ rfl 1
    (by decide) (.inr (by decide))
  exact not_followsAt_of_cutOff rfl hcut (hfollows fun ⟨hdisplaced, _⟩ => absurd hdisplaced (by decide))

end Sys2Proof.PortCounterexamples

/-! SUPPORT. What a frame, settled signalling, the expiry of a timer and the orders on ports do to the machines of one
port. -/

namespace Sys2Proof.Signalling

open Sys2Proof.Machine Sys2Proof.Safety Sys2Proof.Claims Sys2Proof.Carrying Sys2Proof.ResetOrders Sys2Proof.Deletions

/-! ### Entries replaced twice -/

@[simp] theorem put_put {α : Type} {n : Nat} (v : Vector α n) (i : Fin n) (x y : α) : put (put v i x) i y = put v i y := by
  simp [put]

@[simp] theorem setRx_setRx (l : Live) (p : Port) (r t : RxPort) : (l.setRx p r).setRx p t = l.setRx p t := by
  simp [Live.setRx]

@[simp] theorem setTx_setTx (l : Live) (p : Port) (r t : TxPort) : (l.setTx p r).setTx p t = l.setTx p t := by
  simp [Live.setTx]

/-! ### Debounces -/

theorem tick_of_level {d : Debounce} (need : Nat) (h : d.fresh = false) :
    d.tick need d.level = { d with count := 0, due := none } := by
  simp [Debounce.tick, h]

theorem tick_of_other {d : Debounce} (need : Nat) (h : d.fresh = false) :
    d.tick need (!d.level) = Debounce.counted need (!d.level) (d.count + 1) d := by
  simp [Debounce.tick, h]

theorem tick_of_fresh {d : Debounce} (need : Nat) (raw : Bool) (h : d.fresh = true) :
    d.tick need raw = Debounce.counted need raw (if raw = d.run then d.count + 1 else 1) { d with run := raw } := by
  simp [Debounce.tick, h]

/-- By R27 a level that differs counts up from 0, and settles once the count is complete. -/
theorem afterFrames_other {need n : Nat} {d : Debounce} (hf : d.fresh = false) (hc : d.count = 0) (hn : 1 ≤ n) :
    afterFrames need (!d.level) n d = Debounce.counted need (!d.level) n d := by
  induction n, hn using Nat.le_induction with
  | base => simpa [afterFrames, hc] using tick_of_other need hf
  | succ n _ ih =>
    rw [afterFrames, ih]
    exact tick_of_other (d := Debounce.counted need (!d.level) n d) need hf

/-- By R28 a fresh debounce counts frames of one value from 1, whatever run came before. -/
theorem afterFrames_fresh {need n : Nat} {raw : Bool} {d : Debounce} (hf : d.fresh = true)
    (hr : d.count = 0 ∨ d.run ≠ raw) (hn : 1 ≤ n) :
    afterFrames need raw n d = Debounce.counted need raw n { d with run := raw } := by
  induction n, hn using Nat.le_induction with
  | base =>
    have hone : (if raw = d.run then d.count + 1 else 1) = 1 := by
      rcases hr with hzero | hrun
      · simp [hzero]
      · rw [if_neg (Ne.symm hrun)]
    rw [afterFrames, afterFrames, tick_of_fresh need raw hf, hone]
  | succ n _ ih =>
    rw [afterFrames, ih, tick_of_fresh _ _ (by exact hf)]
    simp [Debounce.counted]

/-- Settles O12: by induction on the frames of one raw level. -/
theorem debounceSettlesOnTheCompletingFrame : Obligations.DebounceSettlesOnTheCompletingFrame :=
  ⟨fun need _ hf => tick_of_level need hf, fun _ _ _ hf hc hn => afterFrames_other hf hc hn,
    fun _ _ _ _ hf hr hn => afterFrames_fresh hf hr hn⟩

/-! ### Bytes of the orders on ports -/

theorem readPortNumber_val (p : Port) : readPortNumber (BitVec.ofNat 8 p.val).toNat = some p := by
  have hp : (BitVec.ofNat 8 p.val).toNat = p.val := by
    rw [BitVec.toNat_ofNat]
    exact Nat.mod_eq_of_lt (by omega)
  simp [readPortNumber, hp]

theorem readPortNumber_none {n : Nat} (h : 17 < n) : readPortNumber n = none := by
  unfold readPortNumber
  rw [dif_neg (by omega)]

theorem writePortRecord_eq (r : PortRec) : writePortRecord r = portBytes r := by
  simp [writePortRecord, portBytes, boolByte, natByte]

/-! ### READ PORT -/

theorem orderReadPort_good (p : Port) (c : Settings) (l : Live) :
    orderReadPort [BitVec.ofNat 8 p.val] c l = answer c l
      ([BitVec.ofNat 8 p.val, if 16 ≤ p.val then 1 else 0] ++ portBytes (look c.ports p) ++
        [rxByte (look l.rx p).rx, if (look l.rx p).cor.level then 1 else 0,
         if p.val < 16 ∧ (look l.rx p).emg.level = true then 1 else 0, txByte (look l.tx p).state]) := by
  have h0 : byteAt [BitVec.ofNat 8 p.val] 0 = (BitVec.ofNat 8 p.val).toNat := rfl
  unfold orderReadPort
  rw [if_neg (by simp), h0, readPortNumber_val]
  simp only [writePortRecord_eq, isConsole, boolByte, natByte, Bool.and_eq_true, Bool.not_eq_true',
    decide_eq_true_eq, decide_eq_false_iff_not, not_le]

theorem orderReadPort_bad {b : Byte} (h : 17 < b.toNat) (c : Settings) (l : Live) :
    orderReadPort [b] c l = refuse .range c l := by
  have h0 : byteAt [b] 0 = b.toNat := rfl
  unfold orderReadPort
  rw [if_neg (by simp), h0, readPortNumber_none h]

/-- Settles O19: the order reads the port record and the machines of the port as they stand. -/
theorem readPortAnswersRecordAndSignalling : Obligations.ReadPortAnswersRecordAndSignalling := by
  refine ⟨fun p s h => ?_, fun b s hbad h => ?_⟩
  · show Host.Outcome.next (carryOut 0x10 _ _ s) = _
    rw [carryOut_of_holds _ h, orderReadPort_good, ← catchUp_cfg s, answered_answer]
  · show Host.Outcome.next (carryOut 0x10 _ _ s) = _
    rw [carryOut_refuses h (orderReadPort_bad hbad _ _)]
    rfl

/-! ### COR ignored -/

theorem keyed_iff {t : TxPort} : keyed t = true ↔ t.state = .keying ∨ t.state = .onAir ∨ t.state = .hang := by
  simp [keyed, or_assoc]

theorem ignoresWhenKeyed_iff {r : PortRec} : ignoresWhenKeyed r = true ↔ r.duplex = .half ∨ r.rxlo = true := by
  simp [ignoresWhenKeyed]

theorem corIgnored_iff {c : Settings} {l : Live} {p : Port} : corIgnored c l p = true ↔ Ignored c l p := by
  rw [corIgnored, Bool.and_eq_true, keyed_iff, ignoresWhenKeyed_iff]

theorem corIgnored_false {c : Settings} {l : Live} {p : Port} : corIgnored c l p = false ↔ ¬ Ignored c l p := by
  rw [← corIgnored_iff, Bool.not_eq_true]

/-- Whether a COR is ignored hangs on the transmit machine and the port record alone. -/
theorem corIgnored_congr {c : Settings} {l l' : Live} (p : Port) (h : l'.tx = l.tx) :
    corIgnored c l' p = corIgnored c l p := by
  rw [corIgnored, corIgnored, h]

@[simp] theorem corIgnored_setRx (c : Settings) (l : Live) (p r : Port) (x : RxPort) :
    corIgnored c (l.setRx r x) p = corIgnored c l p := corIgnored_congr p rfl

theorem abandonFresh_eq (d : Debounce) : abandonFresh d = corAsIgnoringBegins d := rfl

theorem startFreshCor_eq (p : Port) (l : Live) : startFreshCor p l = freshCor p l := rfl

theorem loops_of_ignored {c : Settings} {l : Live} {p : Port} (h : Ignored c l p)
    (hd : (look c.ports p).duplex = .full) : loops (look c.ports p) = true := by
  rcases h.2 with hhalf | hrxlo
  · rw [hhalf] at hd
    exact absurd hd (by decide)
  · simp [loops, hd, hrxlo]

theorem isMaydayPort_iff {l : Live} {p : Port} : isMaydayPort l p = true ↔ ∃ q, (look l.ovr q).mayday = some p := by
  simp [isMaydayPort]

theorem talkTimerStart_eq (c : Settings) (l : Live) (p : Port) : talkTimerStart c l p = startTalk c l p := by
  simp only [talkTimerStart, startTalk, Bool.or_eq_true, decide_eq_true_eq, isMaydayPort_iff]
  rfl

/-! ### Events that are due -/

/-- An event that is due takes what comes about at once, then its own effect, then the end of the event. -/
theorem endsWith_of_due {i : Instr} {s : State} {due : Bool} {f : Settings → Live → Live} {l : Live}
    (hi : exec i s = .next (takeEvent due f s)) (hd : due = true) (hf : f s.cfg (catchUp s).live = l) :
    EndsWith i s l := by
  subst hf hd
  rw [EndsWith, Answers, hi, ← catchUp_cfg s]
  rfl

theorem catchUp_rx (s : State) : (catchUp s).live.rx = s.live.rx := by
  rw [catchUp_live]
  exact (catchUpLive_rest s.cfg s.live).1

/-! ### Settled signalling -/

/-- The port with its COR at a settled level. -/
abbrev corAt (v : Bool) (p : Port) (l : Live) : Live := l.setRx p { look l.rx p with cor := atLevel v }

theorem corRise_of_loop {c : Settings} {l : Live} {p : Port} (h : Ignored c l p)
    (hd : (look c.ports p).duplex = .full) : corRise p c l = (corAt true p l).raise (portSource p) .loop := by
  simp only [corRise, corIgnored_setRx, corIgnored_iff.2 h, loops_of_ignored h hd, if_true]
  rfl

theorem corRise_of_half {c : Settings} {l : Live} {p : Port} (h : Ignored c l p)
    (hd : (look c.ports p).duplex = .half) : corRise p c l = corAt true p l := by
  have hloops : loops (look c.ports p) = false := by simp [loops, hd]
  simp only [corRise, corIgnored_setRx, corIgnored_iff.2 h, hloops, if_true, Bool.false_eq_true, if_false]
  rfl

theorem corRise_of_quiet {c : Settings} {l : Live} {p : Port} (h : ¬ Ignored c l p) (hq : (look l.rx p).rx = .quiet) :
    corRise p c l = claim c p
      (l.setRx p { look l.rx p with rx := .active, talk := startTalk c l p, cor := atLevel true }) := by
  simp only [corRise, corIgnored_setRx, corIgnored_false.2 h, Bool.false_eq_true, if_false, receiveRise,
    Live.setRx_rx, look_put_same, hq, if_true, enterRxActive, setRx_setRx, talkTimerStart_eq]
  rfl

theorem corRise_of_not_quiet {c : Settings} {l : Live} {p : Port} (h : ¬ Ignored c l p)
    (hq : (look l.rx p).rx ≠ .quiet) : corRise p c l = corAt true p l := by
  simp only [corRise, corIgnored_setRx, corIgnored_false.2 h, Bool.false_eq_true, if_false, receiveRise,
    Live.setRx_rx, look_put_same, hq]
  rfl

theorem corFall_of_ignored {c : Settings} {l : Live} {p : Port} (h : Ignored c l p) :
    corFall p c l = corAt false p l := by
  simp only [corFall, corIgnored_setRx, corIgnored_iff.2 h, if_true]
  rfl

theorem corFall_of_heard {c : Settings} {l : Live} {p : Port} (h : ¬ Ignored c l p) :
    corFall p c l = receiveFall c p (corAt false p l) := by
  simp only [corFall, corIgnored_setRx, corIgnored_false.2 h, Bool.false_eq_true, if_false]
  rfl

theorem receiveFall_of_quiet {c : Settings} {l : Live} {p : Port} (h : (look l.rx p).rx = .quiet) :
    receiveFall c p l = l := by
  simp only [receiveFall, h]

theorem receiveFall_of_active {c : Settings} {l : Live} {p : Port} (h : (look l.rx p).rx = .active) :
    receiveFall c p l = release c p (l.setRx p { look l.rx p with rx := .quiet, talk := none }) := by
  simp only [receiveFall, h, leaveRxActive]

theorem receiveFall_of_lockout {c : Settings} {l : Live} {p : Port} (h : (look l.rx p).rx = .lockout) :
    receiveFall c p l = l.setRx p { look l.rx p with rx := .quiet, talk := none } := by
  simp only [receiveFall, h]

/-- Settles O44: the settled rise and fall by the state of the receive machine and whether the COR is ignored. -/
theorem settledSignallingDrivesTheReceiver : Obligations.SettledSignallingDrivesTheReceiver := by
  intro p s c u r up down
  refine ⟨fun hdue => ?rise, fun hdue => ?fall, fun hdue => ?emg⟩
  case rise =>
    have hrise := fun l => endsWith_of_due (i := .corSettledRise p) (s := s) (f := corRise p) (l := l) rfl
      (by rw [← catchUp_rx, hdue, beq_self_eq_true])
    exact ⟨fun hi hd => hrise _ (corRise_of_loop hi hd), fun hi hd => hrise _ (corRise_of_half hi hd),
      fun hi hq => hrise _ (corRise_of_quiet hi hq), fun hi hq => hrise _ (corRise_of_not_quiet hi hq)⟩
  case fall =>
    have hfall := fun l => endsWith_of_due (i := .corSettledFall p) (s := s) (f := corFall p) (l := l) rfl
      (by rw [← catchUp_rx, hdue, beq_self_eq_true])
    refine ⟨fun hi => hfall _ (corFall_of_ignored hi), fun hi hq => hfall _ ?quiet, fun hi ha => hfall _ ?active,
      fun hi hl => hfall _ ?lockout⟩
    case quiet =>
      rw [corFall_of_heard hi]
      exact receiveFall_of_quiet (by simpa using hq)
    case active =>
      rw [corFall_of_heard hi, receiveFall_of_active (by simpa using ha)]
      simp [r, u, corAt]
    case lockout =>
      rw [corFall_of_heard hi, receiveFall_of_lockout (by simpa using hl)]
      simp [r, u, corAt]
  case emg =>
    exact endsWith_of_due (i := .emgSettledFall p) rfl (by rw [← catchUp_rx, hdue, beq_self_eq_true]) rfl

/-! ### Timers of a port -/

theorem expired_of_zero {t : Option Nat} (h : t = some 0) : expired t = true := by rw [h]; rfl

theorem talkTimeUp_eq (p : Port) (c : Settings) (l : Live) : talkTimeUp p c l =
    (release c p (l.setRx p { look l.rx p with rx := .lockout, talk := none })).raise (portSource p) .stuck := rfl

theorem leaveKeyed_of_keyed {c : Settings} {l : Live} {p : Port} (h : keyed (look l.tx p) = true) (target : TxState) :
    leaveKeyed c p target l = offAir c p target l := by
  simp only [leaveKeyed, offAir, corIgnored, h, Bool.true_and, ignoresWhenKeyed_iff]
  rfl

/-- A transmit machine as catching up leaves it: in HANG where the service has found the entry (R71). -/
def hangEntered (c : Settings) (p : Port) (t : TxPort) : TxPort :=
  if t.state = .onAir ∧ t.hangDue = true then
    { t with state := .hang, hang := some (framesOfMs (look c.ports p).hang), hangDue := false, sample := 0 }
  else t

theorem enterHangNow_eq (c : Settings) (l : Live) (p : Port) :
    enterHangNow c l p = l.setTx p (hangEntered c p (look l.tx p)) := by
  by_cases h : (look l.tx p).state = .onAir ∧ (look l.tx p).hangDue = true
  · rw [enterHangNow, hangEntered, if_pos h]
    exact if_pos (by simpa using h)
  · rw [enterHangNow, hangEntered, if_neg h, setTx_same rfl]
    exact if_neg (by simpa using h)

theorem enterHangs_eq (c : Settings) (l : Live) : enterHangs c l = { l with tx := mapTable (hangEntered c) l.tx } := by
  rw [enterHangs, funext fun l => funext fun p => enterHangNow_eq c l p, foldl_setTx_allPorts]

@[simp] theorem endCadence_tx (c : Settings) (l : Live) : (endCadence c l).tx = l.tx := by
  unfold endCadence
  split <;> rfl

theorem look_catchUpLive_tx (c : Settings) (l : Live) (p : Port) :
    look (catchUpLive c l).tx p = hangEntered c p (look l.tx p) := by
  rw [catchUpLive, endCadence_tx, enterHangs_eq, look_mapTable]

theorem look_catchUp_tx (s : State) (p : Port) :
    look (catchUp s).live.tx p = hangEntered s.cfg p (look s.live.tx p) := by
  rw [catchUp_live, look_catchUpLive_tx]

theorem hangEntered_of_state {c : Settings} {p : Port} {t : TxPort} (h : t.state ≠ .onAir) : hangEntered c p t = t :=
  if_neg fun hdue => h hdue.1

@[simp] theorem keyed_hangEntered (c : Settings) (p : Port) (t : TxPort) : keyed (hangEntered c p t) = keyed t := by
  unfold hangEntered
  split
  · rename_i h
    simp [keyed, h.1]
  · rfl

theorem keyUpDone_of_expired {l : Live} {p : Port} (hs : (look l.tx p).state = .keying)
    (he : (look l.tx p).keyUp = some 0) :
    keyUpDone l p = l.setTx p { look l.tx p with state := .onAir, keyUp := none } := by
  simp [keyUpDone, hs, expired_of_zero he]

/-- Settles O45: each expiry by the machine whose count it ends. -/
theorem portTimersExpire : Obligations.PortTimersExpire := by
  intro p s c u
  refine ⟨fun ha ht => ?talk, fun hs ht => ?keyUp, fun hs hd => ?enter, fun hs ht => ?hang, fun hs ht => ?confirm⟩
  case talk =>
    have hdue : (rxActive s.live p && expired (look s.live.rx p).talk) = true := by
      simp [rxActive, ha, expired_of_zero ht]
    exact endsWith_of_due (i := .talkTimeExpiry p) rfl hdue rfl
  case keyUp =>
    have hdue : keyUpDue s.live p = true := by simp [keyUpDue, hs, expired_of_zero ht]
    have htx : look u.live.tx p = look s.live.tx p :=
      (look_catchUp_tx s p).trans (hangEntered_of_state (by rw [hs]; decide))
    refine endsWith_of_due (i := .keyUpExpiry p) rfl hdue ?_
    exact keyUpDone_of_expired (by rw [htx, hs]) (by rw [htx, ht])
  case enter =>
    have hlive : enterHangNow c s.live p = s.live.setTx p
        { look s.live.tx p with
          state := .hang, hang := some (max 1 (8 * (look c.ports p).hang)), hangDue := false, sample := 0 } := by
      rw [enterHangNow_eq, hangEntered, if_pos ⟨hs, hd⟩]
      rfl
    rw [Answers, ← hlive]
    rfl
  case hang =>
    have hdue : (decide ((look s.live.tx p).state = .hang) && expired (look s.live.tx p).hang) = true := by
      simp [hs, expired_of_zero ht]
    have hkeyed : keyed (look u.live.tx p) = true := by
      rw [look_catchUp_tx, keyed_hangEntered, keyed_iff]
      exact .inr (.inr hs)
    refine endsWith_of_due (i := .hangExpiry p) rfl hdue ?_
    rw [hangUp, leaveKeyed_of_keyed hkeyed]
  case confirm =>
    have hkeyed : keyed (look s.live.tx p) = true := keyed_iff.2 hs
    have hdue : (keyed (look s.live.tx p) && expired (look s.live.tx p).confirm) = true := by
      simp [hkeyed, expired_of_zero ht]
    refine endsWith_of_due (i := .keyConfirmExpiry p) rfl hdue ?_
    rw [confirmUp, leaveKeyed_of_keyed (by rwa [look_catchUp_tx, keyed_hangEntered])]
    rfl

/-! ### SET PORT -/

theorem storePort_eq (p : Port) (r : PortRec) : storePort p r = storedPort p r := by
  have hconfirm : clampConfirm r.confirm = if r.confirm = 0 then 0 else max 10 (min r.confirm 2000) := by
    unfold clampConfirm
    repeat' split
    all_goals omega
  unfold storePort storedPort
  simp only [isConsole, decide_eq_true_eq, hconfirm]

theorem wordAt_twoBytes {n i : Nat} {body : List Byte} (hn : n < 65536) (h0 : body.getD i 0 = BitVec.ofNat 8 (n / 256))
    (h1 : body.getD (i + 1) 0 = BitVec.ofNat 8 n) : wordAt body i = n := by
  unfold wordAt byteAt
  rw [h0, h1, BitVec.toNat_ofNat, BitVec.toNat_ofNat]
  omega

theorem readChoice_full (r : PortRec) : readChoice (if r.duplex = .full then (1 : Byte) else 0).toNat =
    some (decide (r.duplex = .full)) := by
  by_cases h : r.duplex = .full <;> simp [h, readChoice]

theorem readChoice_rxlo (b : Bool) : readChoice (if b = true then (1 : Byte) else 0).toNat = some b := by
  cases b <;> rfl

theorem readChoice_none {n : Nat} (h : 1 < n) : readChoice n = none := by
  unfold readChoice
  rw [if_neg (by omega), if_neg (by omega)]

/-- What SET PORT reads of a record is the record that was written (R177). -/
theorem readPortRecord_portBytes {r : PortRec} (h : Carriable r) (b : Byte) :
    readPortRecord (b :: portBytes r) 1 = some r := by
  obtain ⟨hkeyUp, hhang, htalk, hconfirm, hdebounce⟩ := h
  have hchoice : byteAt (b :: portBytes r) 1 = (if r.duplex = .full then (1 : Byte) else 0).toNat := rfl
  have hrxlo : byteAt (b :: portBytes r) (1 + 1) = (if r.rxlo = true then (1 : Byte) else 0).toNat := rfl
  have hlast : byteAt (b :: portBytes r) (1 + 10) = r.debounce := by
    show (BitVec.ofNat 8 r.debounce).toNat = _
    rw [BitVec.toNat_ofNat]
    omega
  have hduplex : (if decide (r.duplex = .full) = true then Duplex.full else .half) = r.duplex := by
    cases r.duplex <;> rfl
  unfold readPortRecord
  rw [hchoice, hrxlo, readChoice_full, readChoice_rxlo, hlast, wordAt_twoBytes (n := r.keyUp) hkeyUp rfl rfl,
    wordAt_twoBytes (n := r.hang) hhang rfl rfl, wordAt_twoBytes (n := r.talkLimit) htalk rfl rfl,
    wordAt_twoBytes (n := r.confirm) hconfirm rfl rfl]
  simp only [hduplex]

theorem orderSetPort_good (p : Port) {carried : PortRec} (h : Carriable carried) (c : Settings) (l : Live) :
    orderSetPort (BitVec.ofNat 8 p.val :: portBytes carried) c l =
      let stored := storedPort p carried
      let c' := { c with ports := put c.ports p stored }
      { cfg := c', live := closeEvent c' (portRecordChanged c' p (corIgnored c l p) l),
        status := doneOr (stored ≠ carried), data := portBytes stored } := by
  have h0 : byteAt (BitVec.ofNat 8 p.val :: portBytes carried) 0 = (BitVec.ofNat 8 p.val).toNat := rfl
  unfold orderSetPort
  rw [if_neg (by simp [portBytes, twoBytes]), h0, readPortNumber_val, readPortRecord_portBytes h]
  simp only [storePort_eq, writePortRecord_eq]

theorem orderSetPort_bad {body : List Byte} (hlen : body.length = 12)
    (h : 17 < (body.getD 0 0).toNat ∨ 1 < (body.getD 1 0).toNat ∨ 1 < (body.getD 2 0).toNat) (c : Settings) (l : Live) :
    orderSetPort body c l = refuse .range c l := by
  have hrecord : 1 < (body.getD 1 0).toNat ∨ 1 < (body.getD 2 0).toNat → readPortRecord body 1 = none := by
    intro h
    unfold readPortRecord byteAt
    rcases h with hd | hx
    · rw [readChoice_none hd]
    · rw [readChoice_none hx]
      cases readChoice (body.getD 1 0).toNat <;> rfl
  unfold orderSetPort
  rw [if_neg (by omega)]
  rcases h with hp | hrest
  · rw [byteAt, readPortNumber_none hp]
  · rw [hrecord hrest]
    cases readPortNumber (byteAt body 0) <;> rfl

theorem portRecordChanged_same {c c' : Settings} {l : Live} {p : Port} (h : Ignored c l p ↔ Ignored c' l p) :
    portRecordChanged c' p (corIgnored c l p) l = l := by
  have hsame : corIgnored c' l p = corIgnored c l p := by
    rw [Bool.eq_iff_iff, corIgnored_iff, corIgnored_iff, h]
  unfold portRecordChanged
  rw [hsame]
  split <;> rfl

theorem portRecordChanged_ends {c c' : Settings} {l : Live} {p : Port} (h : Ignored c l p) (h' : ¬ Ignored c' l p) :
    portRecordChanged c' p (corIgnored c l p) l = freshCor p l := by
  unfold portRecordChanged
  rw [corIgnored_false.2 h', corIgnored_iff.2 h]
  rfl

theorem portRecordChanged_begins {c c' : Settings} {l : Live} {p : Port} (h : ¬ Ignored c l p) (h' : Ignored c' l p) :
    portRecordChanged c' p (corIgnored c l p) l = beginIgnoring c' p l := by
  unfold portRecordChanged
  rw [corIgnored_false.2 h, corIgnored_iff.2 h']
  rfl

theorem beginIgnoring_of_not_active {c : Settings} {l : Live} {p : Port} (h : (look l.rx p).rx ≠ .active) :
    beginIgnoring c p l = l.setRx p { look l.rx p with cor := corAsIgnoringBegins (look l.rx p).cor } := by
  simp only [beginIgnoring, rxActive, Live.setRx_rx, look_put_same, h, decide_false, Bool.false_eq_true, if_false,
    abandonFresh_eq]

theorem beginIgnoring_of_active {c : Settings} {l : Live} {p : Port} (h : (look l.rx p).rx = .active) :
    beginIgnoring c p l = release c p (l.setRx p
      { look l.rx p with rx := .quiet, talk := none, cor := corAsIgnoringBegins (look l.rx p).cor }) := by
  simp only [beginIgnoring, rxActive, Live.setRx_rx, look_put_same, h, decide_true, if_true, abandonFresh_eq,
    leaveRxActive, setRx_setRx]

theorem statusByte_doneOr_ne {α : Type} [DecidableEq α] (x y : α) :
    statusByte (doneOr (decide (x ≠ y))) = if x = y then 0x00 else 0x02 := by
  by_cases h : x = y <;> simp [h, doneOr, statusByte]

/-- Settles O29: the record is stored as clamped, and the live state changes only where ignoring begins or ends. -/
theorem setPortStoresTheClampedRecord : Obligations.SetPortStoresTheClampedRecord := by
  constructor
  · intro p carried s hcarriable body hholds stored c l code answer
    have hanswers : ∀ l', portRecordChanged c p (corIgnored s.cfg l p) l = l' →
        Answers (.setPort body) s (answer l') := by
      rintro l' rfl
      show Host.Outcome.next (carryOut 0x11 _ _ s) = _
      rw [carryOut_of_holds _ hholds, orderSetPort_good p hcarriable, answered_eq]
      simp only [statusByte_doneOr_ne]
      rfl
    refine ⟨fun hsame => hanswers _ (portRecordChanged_same hsame),
      fun h h' => hanswers _ (portRecordChanged_ends h h'), fun h h' ha => hanswers _ ?_, fun h h' ha => hanswers _ ?_⟩
    · rw [portRecordChanged_begins h h', beginIgnoring_of_not_active ha]
    · rw [portRecordChanged_begins h h', beginIgnoring_of_active ha]
  · intro body s hlen hbad h
    show Host.Outcome.next (carryOut 0x11 _ _ s) = _
    rw [carryOut_refuses h (orderSetPort_bad hlen hbad _ _)]
    rfl

/-! ### CLEAR PORT -/

theorem liftLockout_of_not {c : Settings} {l : Live} {p : Port} (h : (look l.rx p).rx ≠ .lockout) :
    liftLockout c p l = l := if_neg h

theorem liftLockout_of_ignored {c : Settings} {l : Live} {p : Port} (h : (look l.rx p).rx = .lockout)
    (hi : Ignored c l p) : liftLockout c p l = l.setRx p { look l.rx p with rx := .quiet } := by
  simp only [liftLockout, h, if_true, corIgnored_setRx, corIgnored_iff.2 hi]

theorem liftLockout_of_heard {c : Settings} {l : Live} {p : Port} (h : (look l.rx p).rx = .lockout)
    (hi : ¬ Ignored c l p) : liftLockout c p l = freshCor p (l.setRx p { look l.rx p with rx := .quiet }) := by
  simp only [liftLockout, h, if_true, corIgnored_setRx, corIgnored_false.2 hi, Bool.false_eq_true, if_false,
    startFreshCor_eq]

theorem clearPort_of_no_fault {c : Settings} {l : Live} {p : Port} (h : (look l.tx p).state ≠ .fault) :
    clearPort c p l = liftLockout c p l := by
  rw [clearPort, if_neg h]

theorem clearPort_of_fault {c : Settings} {l : Live} {p : Port} (h : (look l.tx p).state = .fault) :
    clearPort c p l = liftLockout c p (settleKeys c (l.setTx p TxPort.dormant)) := by
  rw [clearPort, if_pos h, clearFault, if_pos h]

theorem orderClearPort_good (p : Port) (c : Settings) (l : Live) :
    orderClearPort [BitVec.ofNat 8 p.val] c l =
      { cfg := c, live := closeEvent c (clearPort c p l), status := .done, data := [] } := by
  have h0 : byteAt [BitVec.ofNat 8 p.val] 0 = (BitVec.ofNat 8 p.val).toNat := rfl
  unfold orderClearPort
  rw [if_neg (by simp), h0, readPortNumber_val]

theorem orderClearPort_bad {b : Byte} (h : 17 < b.toNat) (c : Settings) (l : Live) :
    orderClearPort [b] c l = refuse .range c l := by
  have h0 : byteAt [b] 0 = b.toNat := rfl
  unfold orderClearPort
  rw [if_neg (by simp), h0, readPortNumber_none h]

theorem clearPort_answers {p : Port} {s : State} (h : Holds s 0x12 [BitVec.ofNat 8 p.val]) {l : Live}
    (hl : clearPort s.cfg p (catchUp s).live = l) : Answers (.clearPort [BitVec.ofNat 8 p.val]) s
      (withReply 0x12 0x00 [] (withCore s.cfg (closeEvent s.cfg l) (catchUp s))) := by
  subst hl
  exact answers_result (u := catchUp s) (congrArg _ (carryOut_of_holds _ h)) (orderClearPort_good p s.cfg (catchUp s).live)

/-! ### The arrival of a frame -/

/-- A message in progress fills both byte places of the next frame as far as it goes. -/
theorem continueMessage_eq {s : State} (hform : s.hwi.formDue = true) (hlanes : s.hwi.lanes = []) :
    continueMessage s = { s with
      mci := { s.mci with out := s.mci.out.drop 2 }
      hwi := { s.hwi with lanes := s.mci.out.take 2 } } := by
  obtain ⟨cfg, live, mci, hwi, pending⟩ := s
  obtain ⟨parser, parsed, inBytes, buffer, owed, oru, replies, out⟩ := mci
  obtain ⟨phase, period, driven, received, ringDue, formDue, lanes, outbound, keysw, inReset⟩ := hwi
  simp only at hform hlanes
  rcases out with _ | ⟨a, _ | ⟨b, rest⟩⟩ <;>
    simp [continueMessage, continueOnce, laneOpen, putLane, hform, hlanes]

theorem countDown_eq (t : Option Nat) : Machine.countDown t = oneLess t := by
  cases t <;> rfl

theorem timer_countDown_eq (t : AlertTimer) : t.countDown = match t with
    | .running n => .running (n - 1)
    | other => other := by
  cases t <;> rfl

theorem rawCor_radio (hdi : Vector Byte 45) {p : Port} (h : p.val < 16) :
    rawCor hdi p = (hdi.getD (36 + p.val / 8) 0).getLsbD (p.val % 8) := by
  simp [rawCor, isConsole, h, slotIn]

theorem rawCor_console (hdi : Vector Byte 45) {p : Port} (h : 16 ≤ p.val) :
    rawCor hdi p = (hdi.getD 42 0).getLsbD (p.val - 16) := by
  simp [rawCor, isConsole, h, slotIn]

theorem rawEmg_radio (hdi : Vector Byte 45) {p : Port} (h : p.val < 16) :
    rawEmg hdi p = (hdi.getD (38 + p.val / 8) 0).getLsbD (p.val % 8) := by
  simp [rawEmg, isConsole, h, slotIn]

theorem rawKcf_iff (hdi : Vector Byte 45) (p : Port) :
    rawKcf hdi p = true ↔ p.val < 16 ∧ (hdi.getD (40 + p.val / 8) 0).getLsbD (p.val % 8) = true := by
  simp [rawKcf, isConsole, slotIn]

theorem tickTx_eq (hdi : Vector Byte 45) (p : Port) (t : TxPort) : tickTx hdi p t = { t with
    keyUp := oneLess t.keyUp
    hang := oneLess t.hang
    confirm := if p.val < 16 ∧ (hdi.getD (40 + p.val / 8) 0).getLsbD (p.val % 8) = true then none
      else oneLess t.confirm } := by
  simp only [tickTx, countDown_eq, rawKcf_iff]

theorem tickRx_radio (c : Settings) (hdi : Vector Byte 45) {p : Port} (h : p.val < 16) (r : RxPort) :
    tickRx c hdi p r =
      let need := max 1 (8 * (look c.ports p).debounce)
      { r with
        talk := oneLess r.talk
        cor := r.cor.tick need ((hdi.getD (36 + p.val / 8) 0).getLsbD (p.val % 8))
        emg := r.emg.tick need ((hdi.getD (38 + p.val / 8) 0).getLsbD (p.val % 8)) } := by
  have hconsole : isConsole p = false := by simp [isConsole, h]
  simp only [tickRx, countDown_eq, rawCor_radio hdi h, rawEmg_radio hdi h, hconsole, Bool.false_eq_true, if_false]
  rfl

theorem tickRx_console (c : Settings) (hdi : Vector Byte 45) {p : Port} (h : 16 ≤ p.val) (r : RxPort) :
    tickRx c hdi p r = { r with
      talk := oneLess r.talk
      cor := r.cor.tick (max 1 (8 * (look c.ports p).debounce)) ((hdi.getD 42 0).getLsbD (p.val - 16)) } := by
  have hconsole : isConsole p = true := by simp [isConsole, h]
  simp only [tickRx, countDown_eq, rawCor_console hdi h, hconsole, if_true]
  rfl

/-- A state after an arrival whose work is still to be taken. -/
def arrivedState (hdi : Vector Byte 45) (k : Bool) (u : State) : State :=
  { u with
    live := tickLive u.cfg hdi u.live
    mci := { u.mci.orderDue with inBytes := inboundLanes hdi, out := u.mci.out.drop 2 }
    hwi := { u.hwi with
      phase := .arrived
      period := Config.arrivalPeriod
      received := Vector.ofFn (receivedSample hdi)
      ringDue := true
      formDue := true
      lanes := u.mci.out.take 2
      keysw := k } }

theorem openFrame_eq (hdi : Vector Byte 45) (k : Bool) (u : State) : openFrame hdi k u = arrivedState hdi k u := by
  rw [openFrame, continueMessage_eq rfl rfl]
  rfl

theorem frameArrival_arrives {s : State} (hdi : Vector Byte 45) (k : Bool) (hrun : s.hwi.phase = .running)
    (hreset : s.hwi.inReset = false) :
    Answers (.frameArrival hdi k []) s (arrivedState hdi k (catchUp s)) := by
  show Host.Outcome.next _ = _
  rw [if_pos hrun, arrive, hreset, if_neg (by decide), List.foldl_nil, openFrame_eq]

theorem frameArrival_inReset {s : State} (hdi : Vector Byte 45) (k : Bool) (ts : List FrameTask)
    (hrun : s.hwi.phase = .running) (hreset : s.hwi.inReset = true) :
    Answers (.frameArrival hdi k ts) s { s with hwi := { s.hwi with phase := .arrived, period := 360 } } := by
  show Host.Outcome.next _ = _
  rw [if_pos hrun, arrive, if_pos hreset]
  rfl

/-- What the arrival takes of the live state, entry by entry. -/
theorem tickLive_entries (c : Settings) (hdi : Vector Byte 45) (l : Live) :
    (∀ p, look (tickLive c hdi l).tx p = tickTx hdi p (look l.tx p)) ∧
      (∀ p, look (tickLive c hdi l).rx p = tickRx c hdi p (look l.rx p)) ∧
      (∀ q, (look (tickLive c hdi l).ovr q).timer = (look l.ovr q).timer.countDown) ∧
      (tickLive c hdi l).switch = { l.switch with grace := oneLess l.switch.grace } := by
  refine ⟨fun p => look_mapTable _ _ p, fun p => look_mapTable _ _ p, fun q => ?_, ?_⟩
  · exact congrArg OverrideState.timer (look_mapTable _ l.ovr q)
  · rw [← countDown_eq]
    rfl

/-- What the arrival leaves of the live state. -/
theorem tickLive_rest (c : Settings) (hdi : Vector Byte 45) (l : Live) :
    (tickLive c hdi l).fla = l.fla ∧ (tickLive c hdi l).rings = l.rings ∧ (tickLive c hdi l).active = l.active ∧
      (tickLive c hdi l).lamps = l.lamps ∧ (tickLive c hdi l).guestHolder = l.guestHolder ∧
      (tickLive c hdi l).guestQueue = l.guestQueue ∧ (tickLive c hdi l).exc = l.exc ∧
      (tickLive c hdi l).acc = l.acc ∧ (tickLive c hdi l).queue = l.queue := by
  unfold tickLive
  exact ⟨rfl, rfl, rfl, rfl, rfl, rfl, rfl, rfl, rfl⟩

/-- Settles O8: the arrival part by part. -/
theorem frameArrivalTakesTheFrame : Obligations.FrameArrivalTakesTheFrame := by
  refine ⟨fun hdi k s hrun hreset => ?_, fun hdi k ts s hrun hreset => frameArrival_inReset hdi k ts hrun hreset,
    fun hdi k ts s hrun => ?_⟩
  · have harrives := frameArrival_arrives hdi k hrun hreset
    obtain ⟨hrx, hfla, hactive, hrings, hovr, hlamps, hguest, -, hswitch, hexc, hacc, hqueue, -⟩ :=
      catchUpLive_rest s.cfg s.live
    rw [← catchUp_live] at hrx hfla hactive hrings hovr hlamps hguest hswitch hexc hacc hqueue
    have hcfg := catchUp_cfg s
    have hpending := catchUp_pending s
    generalize catchUp s = u at *
    obtain ⟨htx, hrxs, htimers, hgrace⟩ := tickLive_entries u.cfg hdi u.live
    obtain ⟨tfla, trings, tactive, tlamps, tguest, -, texc, tacc, tqueue⟩ := tickLive_rest u.cfg hdi u.live
    refine ⟨_, harrives, ?_⟩
    simp only [arrivedState]
    exact ⟨hcfg, hpending, trivial, rfl, trivial, trivial, trivial, fun p => look_ofFn _ p, rfl, rfl, trivial, trivial,
      rfl, rfl, fun p => (htx p).trans (tickTx_eq hdi p _),
      fun p hp => (hrxs p).trans (by rw [tickRx_radio _ _ hp, hrx, hcfg]),
      fun p hp => (hrxs p).trans (by rw [tickRx_console _ _ hp, hrx, hcfg]),
      fun q => (htimers q).trans (by rw [hovr]; exact timer_countDown_eq _), hgrace.trans (by rw [hswitch]), tfla.trans hfla,
      trings.trans hrings, tactive.trans hactive, tlamps.trans hlamps, tguest.trans hguest, texc.trans hexc,
      tacc.trans hacc, tqueue.trans hqueue⟩
  · show Host.Outcome.next _ = _
    rw [if_neg hrun]

end Sys2Proof.Signalling

/-! SUPPORT. How transmit machines follow the floors, said as runs of five steps; and what every such step keeps. -/

namespace Sys2Proof.Keying

open Sys2Proof.Machine Sys2Proof.Safety Sys2Proof.Claims Sys2Proof.ResetOrders Sys2Proof.Signalling

/-! ### Keyings and unkeyings part by part -/

theorem setRx_same {l : Live} {p : Port} {x : RxPort} (h : look l.rx p = x) : l.setRx p x = l := by
  subst h
  simp [Live.setRx]

theorem ctxOf_setCtx (l : Live) (q r : Patch) (ctx : Context) :
    ctxOf (l.setCtx q ctx) r = if r = q then ctx else ctxOf l r := by
  rw [ctxOf, Live.setCtx_fla, look_put]
  split <;> rfl

@[simp] theorem claimantsOf_setCtx (l : Live) (q r : Patch) (ctx : Context) :
    claimantsOf (l.setCtx q ctx) r = claimantsOf l r := by
  rw [claimantsOf, Live.setCtx_fla, look_put]
  split
  · rename_i hr
    rw [hr]
    rfl
  · rfl

@[simp] theorem ctxOf_setClaimants (l : Live) (q r : Patch) (ps : List Port) :
    ctxOf (l.setClaimants q ps) r = ctxOf l r := by
  rw [ctxOf, Live.setClaimants_fla, look_put]
  split
  · rename_i hr
    rw [hr]
    rfl
  · rfl

theorem claimantsOf_setClaimants (l : Live) (q r : Patch) (ps : List Port) :
    claimantsOf (l.setClaimants q ps) r = if r = q then ps else claimantsOf l r := by
  rw [claimantsOf, Live.setClaimants_fla, look_put]
  split <;> rfl

@[simp] theorem dropClaims_tx (p : Port) (l : Live) : (dropClaims p l).tx = l.tx := rfl

@[simp] theorem dropClaims_rx (p : Port) (l : Live) : (dropClaims p l).rx = l.rx := rfl

theorem look_dropClaims (p : Port) (l : Live) (q : Patch) :
    look (dropClaims p l).fla q = { look l.fla q with claimants := dropPort p (claimantsOf l q) } := by
  simp only [dropClaims, look_mapTable, claimantsOf]

@[simp] theorem claimantsOf_dropClaims (p : Port) (l : Live) (q : Patch) :
    claimantsOf (dropClaims p l) q = dropPort p (claimantsOf l q) := by
  rw [claimantsOf, look_dropClaims]

@[simp] theorem ctxOf_dropClaims (p : Port) (l : Live) (q : Patch) : ctxOf (dropClaims p l) q = ctxOf l q := by
  rw [ctxOf, look_dropClaims, ctxOf]

/-- The transmit machine of a port that keys on the ring of `q` (R67, R68, R74). -/
def keyedTx (c : Settings) (l : Live) (p : Port) (q : Patch) (keyUpMs : Nat) : TxPort :=
  { state := .keying
    reader := some { ring := q, cursor := (look l.rings q).head, endMark := none }
    keyUp := some (framesOfMs keyUpMs)
    hang := none
    confirm := if (look c.ports p).confirm = 0 then none else some (framesOfMs (look c.ports p).confirm)
    hangDue := false
    sample := 0 }

/-- A keying of the port releases its claim: its COR is ignored from then on, and it is RX_ACTIVE (R34). -/
def releasesAsKeyed (c : Settings) (l : Live) (p : Port) : Bool := ignoresWhenKeyed (look c.ports p) && rxActive l p

theorem rxAsKeyed_of_ignoring {c : Settings} {p : Port} (h : ignoresWhenKeyed (look c.ports p) = true) (x : RxPort) :
    rxAsKeyed c p x = { x with
      rx := if x.rx = .active then .quiet else x.rx
      talk := if x.rx = .active then none else x.talk
      cor := corAsIgnoringBegins x.cor } := if_pos (ignoresWhenKeyed_iff.1 h)

theorem rxAsKeyed_of_heard {c : Settings} {p : Port} (h : ignoresWhenKeyed (look c.ports p) = false) (x : RxPort) :
    rxAsKeyed c p x = x := if_neg (by rw [← ignoresWhenKeyed_iff, h]; decide)

/-- A keying: the transmit machine keyed at the head, the receive side as ignoring begins, the claim released where it is
one (R34, R67). -/
theorem key_eq (c : Settings) (p : Port) (q : Patch) (ms : Nat) (l : Live) :
    key c p q ms l =
      let t := (l.setTx p (keyedTx c l p q ms)).setRx p (rxAsKeyed c p (look l.rx p))
      if releasesAsKeyed c l p then dropClaims p t else t := by
  by_cases hi : ignoresWhenKeyed (look c.ports p) = true
  · by_cases ha : (look l.rx p).rx = .active
    · simp only [key, hi, if_true, ignoreAsKeyed, Live.setTx_rx, ha, releasesAsKeyed, rxActive, Bool.true_and,
        decide_true, rxAsKeyed_of_ignoring hi, abandonFresh_eq, keyedTx]
    · simp only [key, hi, if_true, ignoreAsKeyed, Live.setTx_rx, ha, if_false, releasesAsKeyed, rxActive, Bool.true_and,
        decide_false, Bool.false_eq_true, rxAsKeyed_of_ignoring hi, abandonFresh_eq, keyedTx]
  · rw [Bool.not_eq_true] at hi
    simp only [key, hi, Bool.false_eq_true, if_false, releasesAsKeyed, Bool.false_and, rxAsKeyed_of_heard hi]
    exact (setRx_same rfl).symm

@[simp] theorem key_tx (c : Settings) (p : Port) (q : Patch) (ms : Nat) (l : Live) :
    (key c p q ms l).tx = put l.tx p (keyedTx c l p q ms) := by
  rw [key_eq]
  dsimp only
  split <;> rfl

@[simp] theorem key_rx (c : Settings) (p : Port) (q : Patch) (ms : Nat) (l : Live) :
    (key c p q ms l).rx = put l.rx p (rxAsKeyed c p (look l.rx p)) := by
  rw [key_eq]
  dsimp only
  split <;> rfl

theorem look_key_fla (c : Settings) (p : Port) (q r : Patch) (ms : Nat) (l : Live) :
    look (key c p q ms l).fla r = { look l.fla r with
      claimants := if releasesAsKeyed c l p then dropPort p (claimantsOf l r) else claimantsOf l r } := by
  rw [key_eq]
  dsimp only
  split
  · exact look_dropClaims _ _ _
  · rfl

@[simp] theorem ctxOf_key (c : Settings) (p : Port) (q r : Patch) (ms : Nat) (l : Live) :
    ctxOf (key c p q ms l) r = ctxOf l r := by
  rw [ctxOf, look_key_fla, ctxOf]

theorem claimantsOf_key (c : Settings) (p : Port) (q r : Patch) (ms : Nat) (l : Live) :
    claimantsOf (key c p q ms l) r =
      if releasesAsKeyed c l p then dropPort p (claimantsOf l r) else claimantsOf l r := by
  rw [claimantsOf, look_key_fla]

@[simp] theorem leaveKeyed_tx (c : Settings) (p : Port) (target : TxState) (l : Live) :
    (leaveKeyed c p target l).tx = put l.tx p { TxPort.dormant with state := target } := by
  unfold leaveKeyed
  dsimp only
  split <;> rfl

@[simp] theorem leaveKeyed_fla (c : Settings) (p : Port) (target : TxState) (l : Live) :
    (leaveKeyed c p target l).fla = l.fla := by
  unfold leaveKeyed
  dsimp only
  split <;> rfl

/-- The receive side of a port that leaves the keyed states: a fresh debounce begins where its COR was ignored (R35). -/
theorem leaveKeyed_rx (c : Settings) (p : Port) (target : TxState) (l : Live) :
    (leaveKeyed c p target l).rx = (if corIgnored c l p then (freshCor p l).rx else l.rx) := by
  unfold leaveKeyed
  dsimp only
  split <;> rfl

theorem rx_leaveKeyed (c : Settings) (p r : Port) (target : TxState) (l : Live) :
    ∃ d, look (leaveKeyed c p target l).rx r = { look l.rx r with cor := d } := by
  rw [leaveKeyed_rx]
  split
  · by_cases hr : r = p
    · subst hr
      exact ⟨_, look_put_same _ _ _⟩
    · exact ⟨_, look_put_ne _ _ _ _ hr⟩
  · exact ⟨_, rfl⟩

/-- What a reader becomes as it follows its entitlement (R70, R72). -/
def followed (c : Settings) (l : Live) (p : Port) (r : Reader) (t : TxPort) : TxPort :=
  if entitled c l p r.ring then
    if t.state = .hang && writerActive l r.ring then
      { t with state := .onAir, hang := none,
               reader := some { r with cursor := (look l.rings r.ring).head, endMark := none } }
    else { t with reader := some { r with endMark := none } }
  else { t with reader := some { r with endMark := some (r.endMark.getD (look l.rings r.ring).head) } }

theorem syncReader_of_reader {c : Settings} {l : Live} {p : Port} {r : Reader} (h : (look l.tx p).reader = some r) :
    syncReader c l p = l.setTx p (followed c l p r (look l.tx p)) := by
  unfold syncReader followed
  rw [h]
  dsimp only
  by_cases he : entitled c l p r.ring = true
  · simp only [he, if_true, syncEntitled]
    split <;> rfl
  · simp only [he, syncUnentitled, Bool.false_eq_true, if_false]
    cases hm : r.endMark with
    | none => rfl
    | some e =>
      simp only [Option.getD_some]
      refine (setTx_same ?_).symm
      rw [← hm, ← h]

theorem syncReader_of_none {c : Settings} {l : Live} {p : Port} (h : (look l.tx p).reader = none) :
    syncReader c l p = l := by
  unfold syncReader
  rw [h]

theorem followed_state (c : Settings) (l : Live) (p : Port) (r : Reader) (t : TxPort) :
    (followed c l p r t).state = t.state ∨ (t.state = .hang ∧ (followed c l p r t).state = .onAir) := by
  unfold followed
  repeat' split
  · rename_i h
    simp only [Bool.and_eq_true, decide_eq_true_eq] at h
    exact .inr ⟨h.1, rfl⟩
  · exact .inl rfl
  · exact .inl rfl

theorem keyed_followed (c : Settings) (l : Live) (p : Port) (r : Reader) (t : TxPort) :
    keyed (followed c l p r t) = keyed t := by
  rcases followed_state c l p r t with h | ⟨h, h'⟩
  · simp [keyed, h]
  · simp [keyed, h, h']

theorem followed_reader (c : Settings) (l : Live) (p : Port) (r : Reader) (t : TxPort) :
    ∃ z, (followed c l p r t).reader = some z ∧ z.ring = r.ring := by
  unfold followed
  repeat' split
  all_goals exact ⟨_, rfl, rfl⟩

/-! ### The steps of a hand-on -/

/-- A console may be keyed as a guest on a ring: the patch is not under alert, and the console is not on its floor
(R77, R110). -/
def MayGuest (l : Live) (p : Port) (q : Patch) : Prop :=
  isConsole p = true ∧ underAlert l q = false ∧ onFloor l q p = false

/-- A floor may be put in place: it fits where the one before did, every port on it claims or was on it, and none that
enters it reads the ring (R43, R50). -/
structure Placeable (l : Live) (q : Patch) (floor : List Port) : Prop where
  fits : contextLawful (ctxOf l q) = true → contextLawful { ctxOf l q with floor := floor } = true
  claims : ∀ p ∈ floor, p ∈ claimantsOf l q ∨ p ∈ (ctxOf l q).floor
  granted : ∀ p ∈ floor, p ∉ (ctxOf l q).floor → reads l p q = false

/-- One step of a hand-on: a port keys, leaves the keyed states, or follows its entitlement; or a floor is put in
place. -/
inductive KeyStep (c : Settings) : Live → Live → Prop
  | key (l : Live) (p : Port) (q : Patch) (ms : Nat) (hdormant : (look l.tx p).state = .dormant)
      (hring : entitled c l p q = true ∨ MayGuest l p q) : KeyStep c l (key c p q ms l)
  | leave (l : Live) (p : Port) (target : TxState) (ht : target = .dormant ∨ target = .fault) :
      KeyStep c l (leaveKeyed c p target l)
  | follow (l : Live) (p : Port) (hkeyed : keyed (look l.tx p) = true) : KeyStep c l (syncReader c l p)
  | floor (l : Live) (q : Patch) (floor : List Port) (h : Placeable l q floor) :
      KeyStep c l (l.setCtx q { ctxOf l q with floor := floor })

/-- A run of such steps. -/
abbrev KeyRun (c : Settings) : Live → Live → Prop := Relation.ReflTransGen (KeyStep c)

theorem KeyRun.single {c : Settings} {l l' : Live} (h : KeyStep c l l') : KeyRun c l l' := Relation.ReflTransGen.single h

theorem KeyRun.foldl {α : Type} {c : Settings} {f : Live → α → Live} (xs : List α)
    (hf : ∀ l, ∀ x ∈ xs, KeyRun c l (f l x)) (l : Live) : KeyRun c l (xs.foldl f l) :=
  foldl_keeps_mem (fun l' => KeyRun c l l') f xs (fun _ x hx h => h.trans (hf _ x hx)) l .refl

/-- What every step keeps, a run keeps. -/
theorem KeyRun.keeps {c : Settings} {P : Live → Prop} (hP : ∀ l l', KeyStep c l l' → P l → P l') {l l' : Live}
    (h : KeyRun c l l') (hl : P l) : P l' := by
  induction h with
  | refl => exact hl
  | tail _ hs ih => exact hP _ _ hs ih

/-! ### Operations as runs of steps -/

theorem unkey_run (c : Settings) (p : Port) (l : Live) : KeyRun c l (unkey c p l) := by
  unfold unkey
  split
  · exact .single (.leave l p .dormant (.inl rfl))
  · exact .refl

theorem clearFault_eq {c : Settings} {p : Port} {l : Live} (h : (look l.tx p).state = .fault) :
    clearFault p l = leaveKeyed c p .dormant l := by
  have hcor : corIgnored c l p = false := by simp [corIgnored, keyed, h]
  rw [clearFault, if_pos h, leaveKeyed]
  simp only [hcor, Bool.false_eq_true, if_false]
  rfl

theorem clearFault_run (c : Settings) (p : Port) (l : Live) : KeyRun c l (clearFault p l) := by
  by_cases h : (look l.tx p).state = .fault
  · rw [clearFault_eq (c := c) h]
    exact .single (.leave l p .dormant (.inl rfl))
  · rw [clearFault, if_neg h]

theorem entitled_of_entitledRing {c : Settings} {l : Live} {p : Port} {q : Patch} (h : entitledRing c l p = some q) :
    entitled c l p q = true := List.find?_some (p := fun q => entitled c l p q) h

theorem syncPort_run (c : Settings) (l : Live) (p : Port) : KeyRun c l (syncPort c l p) := by
  have hfollow : keyed (look l.tx p) = true → KeyRun c l (syncReader c l p) := fun h => .single (.follow l p h)
  unfold syncPort
  split
  next hdormant =>
    split
    next q hq =>
      split
      · exact .single (.key l p q _ hdormant (.inl (entitled_of_entitledRing hq)))
      · exact .refl
    next => exact .refl
  next => exact .refl
  next h => exact hfollow (keyed_iff.2 (.inl h))
  next h => exact hfollow (keyed_iff.2 (.inr (.inl h)))
  next h => exact hfollow (keyed_iff.2 (.inr (.inr h)))

theorem sync_run (c : Settings) (l : Live) : KeyRun c l (sync c l) :=
  KeyRun.foldl _ (fun l p _ => syncPort_run c l p) l

/-- A port unkeyed if it reads a ring. -/
def unkeyIfReads (c : Settings) (q : Patch) (l : Live) (p : Port) : Live := if reads l p q then unkey c p l else l

theorem unkeyIfReads_run (c : Settings) (q : Patch) (l : Live) (p : Port) : KeyRun c l (unkeyIfReads c q l p) := by
  unfold unkeyIfReads
  split
  · exact unkey_run c p l
  · exact .refl

@[simp] theorem unkeyIfReads_fla (c : Settings) (q : Patch) (l : Live) (p : Port) : (unkeyIfReads c q l p).fla = l.fla := by
  unfold unkeyIfReads unkey
  repeat' split
  all_goals simp

theorem unkeyIfReads_setCtx (c : Settings) (q : Patch) (ctx : Context) (l : Live) (p : Port) :
    unkeyIfReads c q (l.setCtx q ctx) p = (unkeyIfReads c q l p).setCtx q ctx := by
  unfold unkeyIfReads unkey leaveKeyed
  have hreads : reads (l.setCtx q ctx) p q = reads l p q := rfl
  have hcor : corIgnored c (l.setCtx q ctx) p = corIgnored c l p := rfl
  simp only [hreads, hcor, Live.setCtx_tx]
  repeat' split
  all_goals rfl

/-- The ports that enter a floor as it is put in place. -/
def entering (l : Live) (q : Patch) (ctx : Context) : List Port :=
  ctx.floor.filter (fun p => !(ctxOf l q).floor.contains p)

/-- A floor is put in place once the ports that enter it are unkeyed from its ring (R50). -/
theorem placeFloor_eq (c : Settings) (q : Patch) (ctx : Context) (l : Live) :
    placeFloor c q ctx l = ((entering l q ctx).foldl (unkeyIfReads c q) l).setCtx q ctx := by
  have hcomm : ∀ (ps : List Port) (l : Live),
      ps.foldl (unkeyIfReads c q) (l.setCtx q ctx) = (ps.foldl (unkeyIfReads c q) l).setCtx q ctx := by
    intro ps
    induction ps with
    | nil => intro l; rfl
    | cons p ps ih => intro l; rw [List.foldl_cons, unkeyIfReads_setCtx, ih, List.foldl_cons]
  exact hcomm _ l

theorem foldl_unkeyIfReads_fla (c : Settings) (q : Patch) (ps : List Port) (l : Live) :
    (ps.foldl (unkeyIfReads c q) l).fla = l.fla :=
  foldl_keeps (fun l' => l'.fla = l.fla) _ (fun l' p h => (unkeyIfReads_fla c q l' p).trans h) ps l rfl

theorem keyed_of_reads {l : Live} {p : Port} {q : Patch} (h : reads l p q = true) : keyed (look l.tx p) = true := by
  rw [reads, Bool.and_eq_true] at h
  exact h.1

theorem unkeyIfReads_of_reads {c : Settings} {q : Patch} {l : Live} {p : Port} (h : reads l p q = true) :
    unkeyIfReads c q l p = leaveKeyed c p .dormant l := by
  rw [unkeyIfReads, if_pos h, unkey, if_pos (keyed_of_reads h)]

theorem unkeyIfReads_of_not {c : Settings} {q : Patch} {l : Live} {p : Port} (h : reads l p q = false) :
    unkeyIfReads c q l p = l := by
  rw [unkeyIfReads, h, if_neg (by decide)]

theorem reads_leaveKeyed (c : Settings) (p r : Port) (q : Patch) {target : TxState}
    (ht : target = .dormant ∨ target = .fault) (l : Live) :
    reads (leaveKeyed c p target l) r q = (!decide (r = p) && reads l r q) := by
  rw [reads, leaveKeyed_tx]
  by_cases hr : r = p
  · subst hr
    rcases ht with rfl | rfl <;> simp [keyed]
  · simp [look_put_ne _ _ _ _ hr, hr, reads]

theorem reads_of_unkeyIfReads {c : Settings} {q r : Patch} {l : Live} {p x : Port}
    (h : reads (unkeyIfReads c q l p) x r = true) : reads l x r = true := by
  by_cases hp : reads l p q = true
  · rw [unkeyIfReads_of_reads hp, reads_leaveKeyed _ _ _ _ (.inl rfl), Bool.and_eq_true] at h
    exact h.2
  · rwa [unkeyIfReads_of_not (Bool.not_eq_true _ ▸ hp)] at h

theorem reads_unkeyIfReads_self (c : Settings) (q : Patch) (l : Live) (p : Port) :
    reads (unkeyIfReads c q l p) p q = false := by
  by_cases hp : reads l p q = true
  · simp [unkeyIfReads_of_reads hp, reads_leaveKeyed]
  · rw [Bool.not_eq_true] at hp
    rwa [unkeyIfReads_of_not hp]

theorem reads_foldl_unkeyIfReads (c : Settings) (q : Patch) (ps : List Port) (l : Live) {p : Port} (hp : p ∈ ps) :
    reads (ps.foldl (unkeyIfReads c q) l) p q = false := by
  induction ps generalizing l with
  | nil => exact absurd hp (List.not_mem_nil)
  | cons x ps ih =>
    rcases List.mem_cons.1 hp with rfl | hmem
    · exact foldl_keeps (fun l' => reads l' p q = false) _
        (fun l' y h => Bool.eq_false_iff.2 fun ht => by rw [reads_of_unkeyIfReads ht] at h; exact absurd h (by decide))
        ps _ (reads_unkeyIfReads_self c q l p)
    · exact ih _ hmem

/-- A floor of a patch put in place is a run of steps. -/
theorem placeFloor_run (c : Settings) (q : Patch) (floor : List Port) (l : Live)
    (hfits : contextLawful (ctxOf l q) = true → contextLawful { ctxOf l q with floor := floor } = true)
    (hclaims : ∀ p ∈ floor, p ∈ claimantsOf l q ∨ p ∈ (ctxOf l q).floor) :
    KeyRun c l (placeFloor c q { ctxOf l q with floor := floor } l) := by
  rw [placeFloor_eq]
  set ps := entering l q { ctxOf l q with floor := floor }
  have hfla := foldl_unkeyIfReads_fla c q ps l
  have hctx : ctxOf (ps.foldl (unkeyIfReads c q) l) q = ctxOf l q := by rw [ctxOf, hfla, ctxOf]
  have hcl : claimantsOf (ps.foldl (unkeyIfReads c q) l) q = claimantsOf l q := by
    rw [claimantsOf, hfla, claimantsOf]
  have hunkeyed : KeyRun c l (ps.foldl (unkeyIfReads c q) l) :=
    KeyRun.foldl _ (fun l p _ => unkeyIfReads_run c q l p) l
  rw [← hctx]
  refine hunkeyed.tail (.floor _ q floor ⟨?fits, ?claims, ?granted⟩)
  case fits => rwa [hctx]
  case claims => rwa [hctx, hcl]
  case granted =>
    intro p hp hnew
    rw [hctx] at hnew
    exact reads_foldl_unkeyIfReads c q ps l (List.mem_filter.2 ⟨hp, by simpa using hnew⟩)

/-! ### Selection -/

theorem mem_of_select {key : Port → Nat} {ps : List Port} {p : Port} (h : select key ps = some p) : p ∈ ps := by
  induction ps generalizing p with
  | nil => simp [select] at h
  | cons x ps ih =>
    unfold select at h
    split at h
    · rw [Option.some.inj h]
      exact List.mem_cons_self
    · rename_i b hb
      split at h
      · rw [Option.some.inj h]
        exact List.mem_cons_self
      · rw [← Option.some.inj h]
        exact List.mem_cons_of_mem _ (ih hb)

theorem mem_of_mem_selectMany {key : Port → Nat} {n : Nat} {ps : List Port} {p : Port} (h : p ∈ selectMany key n ps) :
    p ∈ ps := by
  induction n generalizing ps with
  | zero => simp [selectMany] at h
  | succ n ih =>
    unfold selectMany at h
    split at h
    · exact absurd h List.not_mem_nil
    · rename_i x hx
      rcases List.mem_cons.1 h with rfl | hmem
      · exact mem_of_select hx
      · exact ((mem_dropPort _ _ _).1 (ih hmem)).1

theorem length_selectMany_le (key : Port → Nat) (n : Nat) (ps : List Port) : (selectMany key n ps).length ≤ n := by
  induction n generalizing ps with
  | zero => simp [selectMany]
  | succ n ih =>
    unfold selectMany
    split
    · simp
    · simpa using ih _

theorem mem_of_mem_selectedFloor {c : Settings} {l : Live} {q : Patch} {p : Port} (h : p ∈ selectedFloor c l q) :
    p ∈ claimantsOf l q := by
  rw [selectedFloor, Option.mem_toList] at h
  exact (List.mem_filter.1 (mem_of_select h)).1

theorem mem_of_mem_fourLowest {c : Settings} {l : Live} {q : Patch} {p : Port} (h : p ∈ fourLowest c l q) :
    p ∈ claimantsOf l q := by
  rw [fourLowest, mem_portSet] at h
  exact (List.mem_filter.1 (mem_of_mem_selectMany h)).1

theorem length_fourLowest_le (c : Settings) (l : Live) (q : Patch) : (fourLowest c l q).length ≤ 4 :=
  (length_portSet_le _).trans (length_selectMany_le _ _ _)

theorem length_toList_le {α : Type} (o : Option α) : o.toList.length ≤ 1 := by cases o <;> simp

/-- A refilled floor holds claimants and ports that were left of it. -/
theorem mem_of_mem_refilledFloor {c : Settings} {l : Live} {q : Patch} {left : List Port} {p : Port}
    (h : p ∈ refilledFloor c l q left) : p ∈ claimantsOf l q ∨ p ∈ left := by
  unfold refilledFloor at h
  split at h
  · exact .inr h
  · split at h
    · exact .inl (mem_of_mem_fourLowest h)
    · split at h
      · exact .inl (mem_of_mem_selectedFloor h)
      · exact .inr h

theorem contextLawful_iff {ctx : Context} : contextLawful ctx = true ↔
    floorFits ctx.mode ctx.floor = true ∧ (ctx.restriction = none ∨ ctx.mode = .single) ∧
      (ctx.source = .receive ∨ ctx.floor = []) := by
  simp [contextLawful, and_assoc]

theorem source_receive_of_not_alert {l : Live} {q : Patch} (h : underAlert l q = false) : (ctxOf l q).source = .receive := by
  cases hs : (ctxOf l q).source with
  | receive => rfl
  | alert => rw [underAlert, hs] at h; exact absurd h (by decide)

theorem floorHeld_false {l : Live} {q : Patch} (h : floorHeld l q = false) :
    (ctxOf l q).source = .receive ∧ (look l.fla q).freezing = false := by
  rw [floorHeld, Bool.or_eq_false_iff] at h
  exact ⟨source_receive_of_not_alert h.1, h.2⟩

/-- A floor that grants fits: the four lowest in MIX, at most one port in SINGLE. -/
theorem contextLawful_granting {l : Live} {q : Patch} {floor : List Port}
    (hl : (ctxOf l q).restriction = none ∨ (ctxOf l q).mode = .single)
    (hs : (ctxOf l q).source = .receive) (hfit : floorFits (ctxOf l q).mode floor = true) :
    contextLawful { ctxOf l q with floor := floor } = true := contextLawful_iff.2 ⟨hfit, hl, .inl hs⟩

theorem contextLawful_refilledFloor {c : Settings} {l : Live} {q : Patch} {left : List Port}
    (h : contextLawful { ctxOf l q with floor := left } = true) :
    contextLawful { ctxOf l q with floor := refilledFloor c l q left } = true := by
  obtain ⟨hfit, hrestriction, -⟩ := contextLawful_iff.1 h
  unfold refilledFloor
  split
  · exact h
  · rename_i hheld
    obtain ⟨hs, -⟩ := floorHeld_false (Bool.not_eq_true _ ▸ hheld)
    refine contextLawful_granting hrestriction hs ?_
    cases hm : (ctxOf l q).mode with
    | mix => simpa [floorFits] using length_fourLowest_le c l q
    | single =>
      dsimp only
      split
      · exact decide_eq_true (length_toList_le _)
      · simpa [hm] using hfit

/-! ### The hand-on as a run -/

theorem reselect_run {c : Settings} {next : Live → Live} (hnext : ∀ l, KeyRun c l (next l)) (l : Live) (o : Option Patch) :
    KeyRun c l (reselect next c l o) := by
  cases o with
  | none => exact .refl
  | some q =>
    exact (placeFloor_run c q _ l (fun h => contextLawful_refilledFloor h) fun _ hp => mem_of_mem_refilledFloor hp).trans
      (hnext _)

theorem handOn_run (n : Nat) (c : Settings) (l : Live) : KeyRun c l (handOn n c l) := by
  induction n generalizing l with
  | zero => exact sync_run c l
  | succ n ih => exact (sync_run c l).trans (reselect_run ih _ _)

theorem settleKeys_run (c : Settings) (l : Live) : KeyRun c l (settleKeys c l) := handOn_run 18 c l

theorem keyLoser_run (c : Settings) (q : Patch) (l : Live) (p : Port) : KeyRun c l (keyLoser c q l p) := by
  unfold keyLoser
  split
  · rename_i h
    simp only [Bool.and_eq_true, decide_eq_true_eq] at h
    exact .single (.key l p q _ h.1 (.inl h.2))
  · exact .refl

theorem guestKey_run (c : Settings) (q : Patch) (l : Live) {p : Port} (hp : isConsole p = true) :
    KeyRun c l (guestKey c q l p) := by
  unfold guestKey
  split
  · rename_i h
    simp only [Bool.and_eq_true, Bool.not_eq_true', decide_eq_true_eq] at h
    exact .single (.key l p q _ h.1.1 (.inr ⟨hp, h.1.2, h.2⟩))
  · exact .refl

theorem isConsole_of_mem {p : Port} (h : p ∈ consolePorts) : isConsole p = true := by
  revert p
  decide

theorem guestKeys_run (c : Settings) (q : Patch) (l : Live) : KeyRun c l (consolePorts.foldl (guestKey c q) l) :=
  KeyRun.foldl _ (fun l _ hp => guestKey_run c q l (isConsole_of_mem hp)) l

theorem installFloor_run (c : Settings) (q : Patch) (floor : List Port) (l : Live)
    (hfits : contextLawful (ctxOf l q) = true → contextLawful { ctxOf l q with floor := floor } = true)
    (hclaims : ∀ p ∈ floor, p ∈ claimantsOf l q ∨ p ∈ (ctxOf l q).floor) : KeyRun c l (installFloor c q floor l) :=
  (placeFloor_run c q floor l hfits hclaims).trans (settleKeys_run c _)

/-! ### What a run leaves and what it does to receive machines and claims -/

/-- The receive side of a port as keyings of it leave it: as it was but for its debounce of COR, or dropped from
RX_ACTIVE to RX_QUIET with its talk-time timer stopped (R34). -/
def RxStep (x y : RxPort) : Prop :=
  y.emg = x.emg ∧ ((y.rx = x.rx ∧ y.talk = x.talk) ∨ (x.rx = .active ∧ y.rx = .quiet ∧ y.talk = none))

theorem RxStep.refl (x : RxPort) : RxStep x x := ⟨rfl, .inl ⟨rfl, rfl⟩⟩

theorem RxStep.of_cor (x : RxPort) (d : Debounce) : RxStep x { x with cor := d } := ⟨rfl, .inl ⟨rfl, rfl⟩⟩

theorem RxStep.trans {x y z : RxPort} (h : RxStep x y) (k : RxStep y z) : RxStep x z := by
  obtain ⟨hemg, hx⟩ := h
  obtain ⟨kemg, hy⟩ := k
  refine ⟨kemg.trans hemg, ?_⟩
  rcases hx with ⟨hrx, htalk⟩ | ⟨ha, hq, ht⟩
  · rcases hy with ⟨krx, ktalk⟩ | ⟨ka, kq, kt⟩
    · exact .inl ⟨krx.trans hrx, ktalk.trans htalk⟩
    · exact .inr ⟨hrx ▸ ka, kq, kt⟩
  · rcases hy with ⟨krx, ktalk⟩ | ⟨ka, -, -⟩
    · exact .inr ⟨ha, krx.trans hq, ktalk.trans ht⟩
    · rw [hq] at ka
      exact absurd ka (by decide)

/-- A port whose receive state ends as it began kept it all along. -/
theorem RxStep.rx_eq_iff {x y z : RxPort} (h : RxStep x y) (k : RxStep y z) :
    z.rx = x.rx ↔ y.rx = x.rx ∧ z.rx = y.rx := by
  refine ⟨fun e => ?_, fun ⟨e, f⟩ => f.trans e⟩
  rcases h.2 with ⟨hrx, -⟩ | ⟨ha, hq, -⟩
  · exact ⟨hrx, e.trans hrx.symm⟩
  · rcases k.2 with ⟨krx, -⟩ | ⟨ka, -, -⟩
    · rw [krx, hq, ha] at e
      exact absurd e (by decide)
    · rw [hq] at ka
      exact absurd ka (by decide)

theorem RxStep.keyed (c : Settings) (p : Port) (x : RxPort) : RxStep x (rxAsKeyed c p x) := by
  unfold rxAsKeyed
  split
  · by_cases ha : x.rx = .active
    · exact ⟨rfl, .inr ⟨ha, by simp [ha], by simp [ha]⟩⟩
    · exact ⟨rfl, .inl ⟨by simp [ha], by simp [ha]⟩⟩
  · exact .refl x

/-- What a run of a hand-on does beside keyings: everything but floors and machines stays, and so do the contexts but
for their floors; receive machines drop out of RX_ACTIVE at most, which releases the claim of exactly those ports; and no
port that stays in RX_ACTIVE comes to have its COR ignored (R30, R34). -/
structure Tuned (c : Settings) (l l' : Live) : Prop where
  rest : l'.beyondFloors = l.beyondFloors
  ctx : ∀ q, ctxOf l' q = { ctxOf l q with floor := (ctxOf l' q).floor }
  rx : ∀ p, RxStep (look l.rx p) (look l'.rx p)
  claims : ∀ q, claimantsOf l' q = unreleased l l' (claimantsOf l q)
  heeds : ∀ p, corIgnored c l' p = true → rxActive l' p = true → corIgnored c l p = true

theorem unreleased_self (l : Live) (ps : List Port) : unreleased l l ps = ps := by
  simp [unreleased]

theorem unreleased_of_rx {l l' : Live} (h : ∀ p, (look l'.rx p).rx = (look l.rx p).rx) (ps : List Port) :
    unreleased l l' ps = ps := by
  simp [unreleased, h]

theorem Tuned.refl (c : Settings) (l : Live) : Tuned c l l :=
  ⟨rfl, fun _ => rfl, fun _ => .refl _, fun _ => (unreleased_self l _).symm, fun _ h _ => h⟩

theorem Tuned.trans {c : Settings} {a b d : Live} (h : Tuned c a b) (k : Tuned c b d) : Tuned c a d where
  rest := k.rest.trans h.rest
  ctx q := by rw [k.ctx q, h.ctx q]
  rx p := (h.rx p).trans (k.rx p)
  claims q := by
    rw [k.claims, h.claims, unreleased, unreleased, unreleased, List.filter_filter]
    refine List.filter_congr fun p _ => ?_
    rw [Bool.eq_iff_iff, Bool.and_eq_true, decide_eq_true_eq, decide_eq_true_eq, decide_eq_true_eq,
      (h.rx p).rx_eq_iff (k.rx p), and_comm]
  heeds p hi ha := by
    have hb : rxActive b p = true := by
      rw [rxActive, decide_eq_true_eq] at ha ⊢
      rcases (k.rx p).2 with ⟨krx, -⟩ | ⟨-, kq, -⟩
      · exact krx ▸ ha
      · rw [kq] at ha
        exact absurd ha (by decide)
    exact h.heeds p (k.heeds p hi ha) hb

theorem Tuned.of_step {c : Settings} {l l' : Live} (h : KeyStep c l l') : Tuned c l l' := by
  cases h with
  | key p q ms hdormant hring =>
    refine ⟨key_beyondFloors .., fun r => by rw [ctxOf_key], fun r => ?rx, fun r => ?claims, fun r hi ha => ?heeds⟩
    case rx =>
      rw [key_rx, look_put]
      split
      · rename_i hr
        subst hr
        exact .keyed ..
      · exact .refl _
    case claims =>
      rw [claimantsOf_key]
      have hother : ∀ y, y ≠ p → (look (key c p q ms l).rx y).rx = (look l.rx y).rx := fun y hy => by
        rw [key_rx, look_put_ne _ _ _ _ hy]
      have hself : (look (key c p q ms l).rx p).rx = (look l.rx p).rx ↔ releasesAsKeyed c l p = false := by
        rw [key_rx, look_put_same, releasesAsKeyed, rxActive]
        by_cases hi : ignoresWhenKeyed (look c.ports p) = true
        · by_cases ha : (look l.rx p).rx = .active <;> simp [rxAsKeyed_of_ignoring hi, hi, ha]
        · rw [Bool.not_eq_true] at hi
          simp [rxAsKeyed_of_heard hi, hi]
      split
      · rename_i hrel
        rw [unreleased, dropPort]
        refine List.filter_congr fun y _ => ?_
        rw [Bool.eq_iff_iff, decide_eq_true_eq, decide_eq_true_eq]
        by_cases hy : y = p
        · subst hy
          rw [hself, hrel]
          simp
        · exact iff_of_true hy (hother y hy)
      · rename_i hrel
        rw [Bool.not_eq_true] at hrel
        refine (unreleased_of_rx (fun y => ?_) _).symm
        by_cases hy : y = p
        · subst hy
          exact hself.2 hrel
        · exact hother y hy
    case heeds =>
      by_cases hr : r = p
      · subst hr
        rw [corIgnored, Bool.and_eq_true] at hi
        rw [rxActive, key_rx, look_put_same, rxAsKeyed_of_ignoring hi.2, decide_eq_true_eq] at ha
        by_cases hx : (look l.rx r).rx = .active <;> simp [hx] at ha
      · rwa [corIgnored, key_tx, look_put_ne _ _ _ _ hr] at hi
  | leave p target ht =>
    have hrx := fun r => rx_leaveKeyed c p r target l
    have hsame : ∀ r, (look (leaveKeyed c p target l).rx r).rx = (look l.rx r).rx := fun r => by
      obtain ⟨d, hd⟩ := hrx r
      rw [hd]
    refine ⟨leaveKeyed_beyondFloors .., fun q => by rw [ctxOf, leaveKeyed_fla, ctxOf], fun r => ?_, fun q => ?_,
      fun r hi _ => ?_⟩
    · obtain ⟨d, hd⟩ := hrx r
      rw [hd]
      exact .of_cor ..
    · rw [claimantsOf, leaveKeyed_fla, unreleased_of_rx hsame, claimantsOf]
    · rw [corIgnored, leaveKeyed_tx, look_put] at hi
      split at hi
      · rcases ht with rfl | rfl <;> simp [keyed] at hi
      · exact hi
  | follow p hkeyed =>
    cases hr : (look l.tx p).reader with
    | none =>
      rw [syncReader_of_none hr]
      exact .refl c l
    | some r =>
      rw [syncReader_of_reader hr]
      refine ⟨Live.setTx_beyondFloors .., fun _ => rfl, fun _ => .refl _, fun _ => (unreleased_self l _).symm,
        fun x hi _ => ?_⟩
      rw [corIgnored, Live.setTx_tx, look_put] at hi
      split at hi
      · rename_i hx
        subst hx
        rwa [keyed_followed] at hi
      · exact hi
  | floor q floor h =>
    refine ⟨Live.setCtx_beyondFloors .., fun r => ?_, fun _ => .refl _, fun r => ?_, fun _ hi _ => hi⟩
    · rw [ctxOf_setCtx]
      split
      · rename_i hr
        subst hr
        rfl
      · rfl
    · rw [claimantsOf_setCtx]
      exact (unreleased_self l _).symm

theorem KeyRun.tuned {c : Settings} {l l' : Live} (h : KeyRun c l l') : Tuned c l l' :=
  h.keeps (P := fun l' => Tuned c l l') (fun _ _ hs ht => ht.trans (.of_step hs)) (.refl c l)

/-! ### What a run keeps of the laws -/

/-- Who is entitled to a ring is not on its floor (R55, R67). -/
theorem not_onFloor_of_entitled {c : Settings} {l : Live} {p : Port} {q : Patch}
    (hl : contextLawful (ctxOf l q) = true) (h : entitled c l p q = true) : onFloor l q p = false := by
  unfold entitled at h
  obtain ⟨-, -, hsource⟩ := contextLawful_iff.1 hl
  cases hs : (ctxOf l q).source with
  | receive =>
    rw [hs] at h
    simp only [Bool.and_eq_true, Bool.not_eq_true'] at h
    exact h.1
  | alert =>
    rcases hsource with he | he
    · rw [hs] at he
      exact absurd he (by decide)
    · rw [onFloor, he]
      rfl

theorem not_onFloor_of_keying {c : Settings} {l : Live} {p : Port} {q : Patch} (hl : FloorLaw l)
    (h : entitled c l p q = true ∨ MayGuest l p q) : onFloor l q p = false := by
  rcases h with h | ⟨-, -, h⟩
  · exact not_onFloor_of_entitled (hl q).1 h
  · exact h

theorem KeyStep.floorLaw {c : Settings} {l l' : Live} (h : KeyStep c l l') (hl : FloorLaw l) : FloorLaw l' := by
  have hovr : l'.ovr = l.ovr := (beyondFloors_fields (Tuned.of_step h).rest).2.2.1
  intro r
  obtain ⟨hctx, hsaves⟩ := hl r
  rw [hovr]
  refine ⟨?_, hsaves⟩
  cases h with
  | key p q ms => rwa [ctxOf_key]
  | leave p target => rwa [ctxOf, leaveKeyed_fla]
  | follow p =>
    cases hr : (look l.tx p).reader with
    | none => rwa [syncReader_of_none hr]
    | some z => rwa [syncReader_of_reader hr]
  | floor q floor h =>
    rw [ctxOf_setCtx]
    split
    · rename_i hr
      subst hr
      exact h.fits hctx
    · exact hctx

theorem txLawful_iff {t : TxPort} : txLawful t = true ↔
    keyed t = t.reader.isSome ∧ decide (t.state = .keying) = t.keyUp.isSome ∧
      decide (t.state = .hang) = t.hang.isSome ∧ (keyed t = true ∨ t = { TxPort.dormant with state := t.state }) := by
  simp only [txLawful, Bool.and_eq_true, beq_iff_eq, Bool.or_eq_true, decide_eq_true_eq, and_assoc]

theorem txLawful_keyedTx (c : Settings) (l : Live) (p : Port) (q : Patch) (ms : Nat) :
    txLawful (keyedTx c l p q ms) = true := by simp [txLawful, keyedTx, keyed]

theorem txLawful_left {target : TxState} (h : target = .dormant ∨ target = .fault) :
    txLawful { TxPort.dormant with state := target } = true := by
  rcases h with rfl | rfl <;> decide

theorem txLawful_followed {c : Settings} {l : Live} {p : Port} {r : Reader} {t : TxPort} (ht : txLawful t = true)
    (hk : keyed t = true) : txLawful (followed c l p r t) = true := by
  obtain ⟨-, hkeyUp, hhang, -⟩ := txLawful_iff.1 ht
  obtain ⟨z, hz, -⟩ := followed_reader c l p r t
  refine txLawful_iff.2 ⟨?_, ?_, ?_, .inl ?_⟩
  · rw [keyed_followed, hk, hz]
    rfl
  · unfold followed
    repeat' split
    · rename_i h
      simp only [Bool.and_eq_true, decide_eq_true_eq] at h
      simpa [h.1] using hkeyUp
    · exact hkeyUp
    · exact hkeyUp
  · unfold followed
    repeat' split
    · rfl
    · exact hhang
    · exact hhang
  · rwa [keyed_followed]

theorem rxLawful_of_rxStep {x y : RxPort} (h : RxStep x y) (hx : rxLawful x = true) : rxLawful y = true := by
  rcases h.2 with ⟨hrx, htalk⟩ | ⟨-, -, htalk⟩
  · rwa [rxLawful, hrx, htalk]
  · simp [rxLawful, htalk]

theorem KeyStep.portLaw {c : Settings} {l l' : Live} (h : KeyStep c l l') (hl : PortLaw l) : PortLaw l' := by
  intro r
  refine ⟨?_, rxLawful_of_rxStep ((Tuned.of_step h).rx r) (hl r).2⟩
  have hlawful := (hl r).1
  cases h with
  | key p q ms =>
    rw [key_tx, look_put]
    split
    · exact txLawful_keyedTx ..
    · exact hlawful
  | leave p target ht =>
    rw [leaveKeyed_tx, look_put]
    split
    · exact txLawful_left ht
    · exact hlawful
  | follow p hkeyed =>
    cases hr : (look l.tx p).reader with
    | none => rwa [syncReader_of_none hr]
    | some z =>
      rw [syncReader_of_reader hr, Live.setTx_tx, look_put]
      split
      · exact txLawful_followed (hl p).1 hkeyed
      · exact hlawful
  | floor q floor => exact hlawful

theorem reads_iff {l : Live} {p : Port} {q : Patch} : reads l p q = true ↔
    keyed (look l.tx p) = true ∧ ∃ r, (look l.tx p).reader = some r ∧ r.ring = q := by
  simp only [reads, Bool.and_eq_true, Option.any_eq_true, decide_eq_true_eq]

theorem KeyStep.grantLaw {c : Settings} {l l' : Live} (h : KeyStep c l l') (hf : FloorLaw l) (hl : GrantLaw l) :
    GrantLaw l' := by
  intro r q hfloor
  rw [Bool.eq_false_iff]
  intro hreads
  obtain ⟨hk, z, hz, hring⟩ := reads_iff.1 hreads
  have hbefore : onFloor l q r = true → reads l r q = true → False := fun ho hr => by
    rw [hl r q ho] at hr
    exact absurd hr (by decide)
  cases h with
  | key p q' ms hdormant hfree =>
    rw [onFloor, ctxOf_key] at hfloor
    rw [key_tx, look_put] at hk hz
    split at hz
    · rename_i hr
      subst hr
      obtain rfl := Option.some.inj hz
      obtain rfl : q' = q := hring
      have hoff := not_onFloor_of_keying hf hfree
      rw [onFloor, hfloor] at hoff
      exact absurd hoff (by decide)
    · rename_i hr
      rw [if_neg hr] at hk
      exact hbefore hfloor (reads_iff.2 ⟨hk, z, hz, hring⟩)
  | leave p target ht =>
    rw [onFloor, ctxOf, leaveKeyed_fla] at hfloor
    rw [reads_leaveKeyed _ _ _ _ ht, Bool.and_eq_true] at hreads
    exact hbefore hfloor hreads.2
  | follow p hkeyed =>
    cases hr : (look l.tx p).reader with
    | none =>
      rw [syncReader_of_none hr] at hfloor hreads
      exact hbefore hfloor hreads
    | some y =>
      rw [syncReader_of_reader hr] at hfloor hk hz
      refine hbefore hfloor (reads_iff.2 ?_)
      rw [Live.setTx_tx, look_put] at hk hz
      split at hz
      · rename_i hp
        subst hp
        obtain ⟨w, hw, hwring⟩ := followed_reader c l r y (look l.tx r)
        obtain rfl := Option.some.inj (hw.symm.trans hz)
        exact ⟨hkeyed, y, hr, hwring.symm.trans hring⟩
      · rename_i hp
        rw [if_neg hp] at hk
        exact ⟨hk, z, hz, hring⟩
  | floor q' floor h =>
    rw [onFloor, ctxOf_setCtx] at hfloor
    split at hfloor
    · rename_i hq
      subst hq
      by_cases hold : onFloor l q r = true
      · exact hbefore hold hreads
      · have hgranted := h.granted r (by simpa using hfloor) (by simpa [onFloor] using hold)
        rw [show reads l r q = true from hreads] at hgranted
        exact absurd hgranted (by decide)
    · exact hbefore hfloor hreads

theorem placeLawful_iff {head : Count} {r : Reader} : placeLawful head r = true ↔
    (head - r.cursor).toNat ≤ 4096 ∧ ∀ e, r.endMark = some e → (e - r.cursor).toNat ≤ (head - r.cursor).toNat := by
  rw [placeLawful, Bool.and_eq_true, decide_eq_true_eq, Option.all_eq_true]
  simp only [decide_eq_true_eq]
  rfl

theorem placeLawful_head (head : Count) (q : Patch) :
    placeLawful head { ring := q, cursor := head, endMark := none } = true := by
  rw [placeLawful_iff]
  simp

theorem KeyStep.lagLaw {c : Settings} {l l' : Live} (h : KeyStep c l l') (hl : LagLaw l) : LagLaw l' := by
  have hrings : l'.rings = l.rings := (beyondFloors_fields (Tuned.of_step h).rest).2.1
  intro r z hk hz
  rw [hrings]
  cases h with
  | key p q ms =>
    rw [key_tx, look_put] at hk hz
    split at hz
    · obtain rfl := Option.some.inj hz
      exact placeLawful_head _ _
    · rename_i hr
      rw [if_neg hr] at hk
      exact hl r z hk hz
  | leave p target ht =>
    rw [leaveKeyed_tx, look_put] at hk hz
    split at hz
    · exact absurd hz (by simp [TxPort.dormant])
    · rename_i hr
      rw [if_neg hr] at hk
      exact hl r z hk hz
  | follow p hkeyed =>
    cases hr : (look l.tx p).reader with
    | none =>
      rw [syncReader_of_none hr] at hk hz
      exact hl r z hk hz
    | some y =>
      rw [syncReader_of_reader hr, Live.setTx_tx, look_put] at hk hz
      split at hz
      · obtain ⟨hlag, hmark⟩ := placeLawful_iff.1 (hl p y hkeyed hr)
        unfold followed at hz
        rw [placeLawful_iff]
        split at hz
        · split at hz
          · obtain rfl := Option.some.inj hz
            simp
          · obtain rfl := Option.some.inj hz
            exact ⟨hlag, by simp⟩
        · obtain rfl := Option.some.inj hz
          refine ⟨hlag, fun e he => ?_⟩
          obtain rfl := Option.some.inj he
          cases hm : y.endMark with
          | none => simp
          | some e => exact hmark e hm
      · rename_i hp
        rw [if_neg hp] at hk
        exact hl r z hk hz
  | floor q floor => exact hl r z hk hz

end Sys2Proof.Keying

/-! SUPPORT. What CLEAR PORT does; and the live state's changes said as runs of a few kinds of step. -/

namespace Sys2Proof.LiveSteps

open Sys2Proof.Machine Sys2Proof.Safety Sys2Proof.Claims Sys2Proof.ResetOrders Sys2Proof.Signalling Sys2Proof.Keying
  Sys2Proof.Deletions Sys2Proof.Carrying

/-! ### CLEAR PORT -/

/-- No hand-on takes a port into RX_LOCKOUT or out of it. -/
theorem KeyRun.lockout_iff {c : Settings} {l l' : Live} (h : KeyRun c l l') (p : Port) :
    (look l'.rx p).rx = .lockout ↔ (look l.rx p).rx = .lockout := by
  rcases (h.tuned.rx p).2 with ⟨hrx, -⟩ | ⟨ha, hq, -⟩
  · rw [hrx]
  · rw [ha, hq]
    decide

theorem lockout_settleKeys_iff (c : Settings) (l : Live) (p : Port) :
    (look (settleKeys c (l.setTx p TxPort.dormant)).rx p).rx = .lockout ↔ (look l.rx p).rx = .lockout :=
  KeyRun.lockout_iff (settleKeys_run c (l.setTx p TxPort.dormant)) p

section

variable {c : Settings} {l : Live} {p : Port} (ht : (look l.tx p).state = .fault)
include ht

theorem clearPort_fault_unlocked (hr : (look l.rx p).rx ≠ .lockout) :
    clearPort c p l = settleKeys c (l.setTx p TxPort.dormant) := by
  rw [clearPort_of_fault ht, liftLockout_of_not]
  rwa [ne_eq, lockout_settleKeys_iff]

theorem clearPort_fault_waits (hr : (look l.rx p).rx = .lockout)
    (hi : Ignored c (settleKeys c (l.setTx p TxPort.dormant)) p) :
    clearPort c p l =
      let keyed := settleKeys c (l.setTx p TxPort.dormant)
      keyed.setRx p { look keyed.rx p with rx := .quiet } := by
  rw [clearPort_of_fault ht, liftLockout_of_ignored ((lockout_settleKeys_iff c l p).2 hr) hi]

theorem clearPort_fault_heard (hr : (look l.rx p).rx = .lockout)
    (hi : ¬ Ignored c (settleKeys c (l.setTx p TxPort.dormant)) p) :
    clearPort c p l =
      let keyed := settleKeys c (l.setTx p TxPort.dormant)
      freshCor p (keyed.setRx p { look keyed.rx p with rx := .quiet }) := by
  rw [clearPort_of_fault ht, liftLockout_of_heard ((lockout_settleKeys_iff c l p).2 hr) hi]

end

theorem not_fault_of_ignored {c : Settings} {l : Live} {p : Port} (h : Ignored c l p) :
    (look l.tx p).state ≠ .fault := by
  rcases h.1 with h | h | h <;> rw [h] <;> decide

/-- Settles O30: by whether the port is in RX_LOCKOUT and in FAULT, and whether its COR is ignored once it has keyed. -/
theorem clearPortLiftsLockoutAndFault : Obligations.ClearPortLiftsLockoutAndFault := by
  constructor
  · intro p s h l lifted answer
    refine ⟨fun hr ht => clearPort_answers h ?neither, fun hr hi => clearPort_answers h ?waits,
      fun hr hi ht => clearPort_answers h ?heard, fun hr ht => clearPort_answers h (clearPort_fault_unlocked ht hr),
      fun hr ht => ⟨fun hi => clearPort_answers h (clearPort_fault_waits ht hr hi),
        fun hi => clearPort_answers h (clearPort_fault_heard ht hr hi)⟩⟩
    case neither => rw [clearPort_of_no_fault ht, liftLockout_of_not hr]
    case waits =>
      rw [clearPort_of_no_fault (not_fault_of_ignored hi), liftLockout_of_ignored hr hi]
      exact (if_pos hr).symm
    case heard =>
      rw [clearPort_of_no_fault ht, liftLockout_of_heard hr hi]
      exact congrArg _ (if_pos hr).symm
  · intro b s hbad h
    show Host.Outcome.next (carryOut 0x12 _ _ s) = _
    rw [carryOut_refuses h (orderClearPort_bad hbad _ _)]
    rfl

/-! ### The steps of the live state -/

/-- What a step changes beside floors and machines: receive and transmit machines, saves and ring heads stay, and a context
stays or becomes a default one. -/
structure Beside (l l' : Live) : Prop where
  tx : l'.tx = l.tx
  rx : l'.rx = l.rx
  ovr : l'.ovr = l.ovr
  heads : ∀ q, (look l'.rings q).head = (look l.rings q).head
  ctx : ∀ q, ctxOf l' q = ctxOf l q ∨ ∃ m, ctxOf l' q = Context.default m

/-- A context may be installed: it is lawful where the contexts were, and no port that enters its floor reads the ring
(R43, R50, R52, R55). -/
structure Installable (l : Live) (q : Patch) (ctx : Context) : Prop where
  fits : FloorLaw l → contextLawful ctx = true
  granted : ∀ p ∈ ctx.floor, p ∉ (ctxOf l q).floor → reads l p q = false

/-- The saves of an override state fit (R103). -/
def SavesFit (o : OverrideState) : Prop := saveLawful o.save1 = true ∧ saveLawful o.save2 = true

/-- One step of the live state but for the ring work and the counts of a frame: a step of a hand-on; a context installed,
saves written, or both; a receive machine that does not enter RX_ACTIVE with its COR ignored; a reader flushed; or a
change beside all these. -/
inductive Step (c : Settings) : Live → Live → Prop
  | keying {l l' : Live} (h : KeyStep c l l') : Step c l l'
  | context (l : Live) (q : Patch) (ctx : Context) (h : Installable l q ctx) : Step c l (l.setCtx q ctx)
  | saves (l : Live) (q : Patch) (o : OverrideState) (h : FloorLaw l → SavesFit o) : Step c l (l.setOvr q o)
  | restore (l : Live) (q : Patch) (ctx : Context) (o : OverrideState) (h : Installable l q ctx)
      (ho : FloorLaw l → SavesFit o) : Step c l ((l.setOvr q o).setCtx q ctx)
  | receive (l : Live) (p : Port) (x : RxPort) (hlawful : rxLawful (look l.rx p) = true → rxLawful x = true)
      (hheeds : x.rx = .active → rxActive l p = true ∨ corIgnored c l p = false) : Step c l (l.setRx p x)
  | flush (l : Live) (p : Port) (q : Patch) (h : reads l p q = true) :
      Step c l (flushPort (look l.rings q).head l p)
  | beside {l l' : Live} (h : Beside l l') : Step c l l'

/-- A run of such steps. -/
abbrev Run (c : Settings) : Live → Live → Prop := Relation.ReflTransGen (Step c)

theorem Run.single {c : Settings} {l l' : Live} (h : Step c l l') : Run c l l' := Relation.ReflTransGen.single h

theorem Run.of_keyRun {c : Settings} {l l' : Live} (h : KeyRun c l l') : Run c l l' :=
  h.keeps (P := fun l' => Run c l l') (fun _ _ hs hr => hr.tail (.keying hs)) .refl

theorem Run.foldl {α : Type} {c : Settings} {f : Live → α → Live} (xs : List α)
    (hf : ∀ l, ∀ x ∈ xs, Run c l (f l x)) (l : Live) : Run c l (xs.foldl f l) :=
  foldl_keeps_mem (fun l' => Run c l l') f xs (fun _ x hx h => h.trans (hf _ x hx)) l .refl

/-- What every step keeps, a run keeps. -/
theorem Run.keeps {c : Settings} {P : Live → Prop} (hP : ∀ l l', Step c l l' → P l → P l') {l l' : Live}
    (h : Run c l l') (hl : P l) : P l' := by
  induction h with
  | refl => exact hl
  | tail _ hs ih => exact hP _ _ hs ih

/-! ### What steps keep -/

theorem floorLaw_congr {l l' : Live} (hl : FloorLaw l) (hctx : ∀ q, ctxOf l' q = ctxOf l q) (hovr : l'.ovr = l.ovr) :
    FloorLaw l' := by
  intro q
  rw [hctx, hovr]
  exact hl q

theorem contextLawful_default (m : Mode) : contextLawful (Context.default m) = true := by cases m <;> rfl

theorem floorLaw_setOvr {l : Live} (hl : FloorLaw l) {q : Patch} {o : OverrideState} (ho : SavesFit o) :
    FloorLaw (l.setOvr q o) := by
  intro r
  refine ⟨(hl r).1, ?_⟩
  rw [Live.setOvr_ovr, look_put]
  split
  · exact ho
  · exact (hl r).2

theorem floorLaw_setCtx {l : Live} (hl : FloorLaw l) {q : Patch} {ctx : Context} (h : contextLawful ctx = true) :
    FloorLaw (l.setCtx q ctx) := by
  intro r
  refine ⟨?_, (hl r).2⟩
  rw [ctxOf_setCtx]
  split
  · exact h
  · exact (hl r).1

theorem Step.floorLaw {c : Settings} {l l' : Live} (h : Step c l l') (hl : FloorLaw l) : FloorLaw l' := by
  cases h with
  | keying h => exact h.floorLaw hl
  | context q ctx h => exact floorLaw_setCtx hl (h.fits hl)
  | saves q o h => exact floorLaw_setOvr hl (h hl)
  | restore q ctx o h ho => exact floorLaw_setCtx (floorLaw_setOvr hl (ho hl)) (h.fits hl)
  | receive p x => exact hl
  | flush p q => exact hl
  | beside h =>
    intro q
    rw [h.ovr]
    refine ⟨?_, (hl q).2⟩
    rcases h.ctx q with hsame | ⟨m, hdefault⟩
    · rw [hsame]
      exact (hl q).1
    · rw [hdefault]
      exact contextLawful_default m

theorem flushReader_state (head : Count) (t : TxPort) : (flushReader head t).state = t.state := by
  unfold flushReader
  split <;> rfl

theorem keyed_flushReader (head : Count) (t : TxPort) : keyed (flushReader head t) = keyed t := by
  simp only [keyed, flushReader_state]

theorem flushReader_of_reader {head : Count} {t : TxPort} {r : Reader} (h : t.reader = some r) :
    flushReader head t =
      { t with reader := some { r with cursor := head, endMark := r.endMark.map (fun _ => head) } } := by
  rw [flushReader, h]

theorem txLawful_flushReader {head : Count} {t : TxPort} {r : Reader} (hr : t.reader = some r) (hk : keyed t = true)
    (ht : txLawful t = true) : txLawful (flushReader head t) = true := by
  obtain ⟨-, hkeyUp, hhang, -⟩ := txLawful_iff.1 ht
  rw [flushReader_of_reader hr]
  exact txLawful_iff.2 ⟨hk, hkeyUp, hhang, .inl hk⟩

theorem reads_congr {l l' : Live} (h : l'.tx = l.tx) (p : Port) (q : Patch) : reads l' p q = reads l p q := by
  rw [reads, reads, h]

theorem reads_flushPort (head : Count) (l : Live) (p r : Port) (q : Patch) :
    reads (flushPort head l p) r q = reads l r q := by
  rw [reads, flushPort, Live.setTx_tx, look_put]
  split
  · rename_i hr
    subst hr
    rw [keyed_flushReader, reads, flushReader]
    split
    · rename_i z hz
      rw [hz]
      rfl
    · rfl
  · rfl

theorem Step.portLaw {c : Settings} {l l' : Live} (h : Step c l l') (hl : PortLaw l) : PortLaw l' := by
  cases h with
  | keying h => exact h.portLaw hl
  | context q ctx h => exact hl
  | saves q o h => exact hl
  | restore q ctx o h ho => exact hl
  | receive p x hlawful =>
    intro r
    refine ⟨(hl r).1, ?_⟩
    rw [Live.setRx_rx, look_put]
    split
    · exact hlawful (hl p).2
    · exact (hl r).2
  | flush p q h =>
    obtain ⟨hk, z, hz, -⟩ := reads_iff.1 h
    intro r
    refine ⟨?_, (hl r).2⟩
    rw [flushPort, Live.setTx_tx, look_put]
    split
    · exact txLawful_flushReader hz hk (hl p).1
    · exact (hl r).1
  | beside h =>
    intro r
    rw [h.tx, h.rx]
    exact hl r

theorem grantLaw_setCtx {l : Live} {q : Patch} {ctx : Context} (h : Installable l q ctx) (hl : GrantLaw l) :
    GrantLaw (l.setCtx q ctx) := by
  intro p r hfloor
  rw [onFloor, ctxOf_setCtx] at hfloor
  split at hfloor
  · rename_i hr
    subst hr
    by_cases hold : onFloor l r p = true
    · exact hl p r hold
    · exact h.granted p (by simpa using hfloor) (by simpa [onFloor] using hold)
  · exact hl p r hfloor

theorem Step.grantLaw {c : Settings} {l l' : Live} (h : Step c l l') (hf : FloorLaw l) (hl : GrantLaw l) :
    GrantLaw l' := by
  cases h with
  | keying h => exact h.grantLaw hf hl
  | context q ctx h => exact grantLaw_setCtx h hl
  | saves q o h => exact hl
  | restore q ctx o h ho => exact grantLaw_setCtx (l := l.setOvr q o) ⟨fun _ => h.fits hf, h.granted⟩ hl
  | receive p x => exact hl
  | flush p q h =>
    intro r z hfloor
    rw [reads_flushPort]
    exact hl r z hfloor
  | beside h =>
    intro p q hfloor
    rw [reads_congr h.tx]
    refine hl p q ?_
    rcases h.ctx q with hsame | ⟨m, hdefault⟩
    · rwa [onFloor, hsame] at hfloor
    · rw [onFloor, hdefault] at hfloor
      exact absurd hfloor (by simp [Context.default])

theorem placeLawful_flushed (head : Count) (q : Patch) (e : Option Count) :
    placeLawful head { ring := q, cursor := head, endMark := e.map (fun _ => head) } = true := by
  rw [placeLawful_iff, BitVec.sub_self]
  refine ⟨by decide, fun x hx => ?_⟩
  cases e with
  | none => exact absurd hx (by simp)
  | some e =>
    obtain rfl := Option.some.inj hx
    rw [BitVec.sub_self]

theorem Step.lagLaw {c : Settings} {l l' : Live} (h : Step c l l') (hl : LagLaw l) : LagLaw l' := by
  cases h with
  | keying h => exact h.lagLaw hl
  | context q ctx h => exact hl
  | saves q o h => exact hl
  | restore q ctx o h ho => exact hl
  | receive p x => exact hl
  | flush p q h =>
    obtain ⟨-, y, hy, rfl⟩ := reads_iff.1 h
    intro r z hk hz
    rw [flushPort, Live.setTx_tx, look_put] at hk hz
    split at hz
    · rw [flushReader_of_reader hy] at hz
      obtain rfl := Option.some.inj hz
      exact placeLawful_flushed _ _ _
    · rename_i hr
      rw [if_neg hr] at hk
      exact hl r z hk hz
  | beside h =>
    intro r z hk hz
    rw [h.tx] at hk hz
    have hplace := hl r z hk hz
    rwa [← h.heads] at hplace

/-- No port comes to be RX_ACTIVE with its COR ignored (R34). -/
def Heeds (c : Settings) (l l' : Live) : Prop :=
  ∀ p, corIgnored c l' p = true → rxActive l' p = true → corIgnored c l p = true ∧ rxActive l p = true

theorem Heeds.of_same {c : Settings} {l l' : Live} (htx : ∀ p, keyed (look l'.tx p) = keyed (look l.tx p))
    (hrx : ∀ p, (look l'.rx p).rx = (look l.rx p).rx) : Heeds c l l' := by
  intro p hi ha
  rw [corIgnored, htx] at hi
  rw [rxActive, hrx] at ha
  exact ⟨hi, ha⟩

theorem Step.heeds {c : Settings} {l l' : Live} (h : Step c l l') : Heeds c l l' := by
  cases h with
  | keying h =>
    have ht := Tuned.of_step h
    intro p hi ha
    refine ⟨ht.heeds p hi ha, ?_⟩
    rw [rxActive, decide_eq_true_eq] at ha ⊢
    rcases (ht.rx p).2 with ⟨hrx, -⟩ | ⟨h, -⟩
    · rwa [hrx] at ha
    · exact h
  | context q ctx h => exact .of_same (fun _ => rfl) fun _ => rfl
  | saves q o h => exact .of_same (fun _ => rfl) fun _ => rfl
  | restore q ctx o h ho => exact .of_same (fun _ => rfl) fun _ => rfl
  | receive p x hlawful hheeds =>
    intro r hi ha
    rw [corIgnored_setRx] at hi
    refine ⟨hi, ?_⟩
    rw [rxActive, Live.setRx_rx, look_put, decide_eq_true_eq] at ha
    split at ha
    · rename_i hr
      subst hr
      rcases hheeds ha with h | h
      · exact h
      · rw [hi] at h
        exact absurd h (by decide)
    · rwa [rxActive, decide_eq_true_eq]
  | flush p q h =>
    refine .of_same (fun r => ?_) fun _ => rfl
    rw [flushPort, Live.setTx_tx, look_put]
    split
    · rename_i hr
      rw [hr, keyed_flushReader]
    · rfl
  | beside h => exact .of_same (fun p => by rw [h.tx]) fun p => by rw [h.rx]

/-- Ports, floors and readers are lawful. -/
def Sound (l : Live) : Prop := PortLaw l ∧ FloorLaw l ∧ GrantLaw l ∧ LagLaw l

theorem Run.floorLaw {c : Settings} {l l' : Live} (h : Run c l l') (hl : FloorLaw l) : FloorLaw l' :=
  h.keeps (fun _ _ hs => hs.floorLaw) hl

theorem Run.sound {c : Settings} {l l' : Live} (h : Run c l l') (hl : Sound l) : Sound l' :=
  h.keeps (fun _ _ hs ⟨hp, hf, hg, hlag⟩ => ⟨hs.portLaw hp, hs.floorLaw hf, hs.grantLaw hf hg, hs.lagLaw hlag⟩) hl

theorem Run.heeds {c : Settings} {l l' : Live} (h : Run c l l') : Heeds c l l' :=
  h.keeps (P := fun l' => Heeds c l l')
    (fun _ _ hs hh p hi ha => hh p (hs.heeds p hi ha).1 (hs.heeds p hi ha).2) fun _ hi ha => ⟨hi, ha⟩

end Sys2Proof.LiveSteps

/-! SUPPORT. Every operation of the live state but the work of a frame as such a run. -/

namespace Sys2Proof.LiveRuns

open Sys2Proof.Machine Sys2Proof.Safety Sys2Proof.Claims Sys2Proof.ResetOrders Sys2Proof.Signalling Sys2Proof.Keying
  Sys2Proof.Deletions Sys2Proof.LiveSteps

/-! ### Contexts put in place -/

theorem beside_of_fields {l l' : Live} (htx : l'.tx = l.tx) (hrx : l'.rx = l.rx) (hovr : l'.ovr = l.ovr)
    (hrings : l'.rings = l.rings) (hctx : ∀ q, ctxOf l' q = ctxOf l q) : Beside l l' :=
  ⟨htx, hrx, hovr, fun q => by rw [hrings], fun q => .inl (hctx q)⟩

theorem setClaimants_run (c : Settings) (q : Patch) (ps : List Port) (l : Live) : Run c l (l.setClaimants q ps) :=
  .single (.beside (beside_of_fields rfl rfl rfl rfl fun r => ctxOf_setClaimants l q r ps))

theorem ctxOf_setFreezing (l : Live) (q r : Patch) (b : Bool) : ctxOf (l.setFreezing q b) r = ctxOf l r := by
  rw [ctxOf, Live.setFreezing_fla, look_put]
  split
  · rename_i hr
    rw [hr]
    rfl
  · rfl

theorem setFreezing_run (c : Settings) (q : Patch) (b : Bool) (l : Live) : Run c l (l.setFreezing q b) :=
  .single (.beside (beside_of_fields rfl rfl rfl rfl fun r => ctxOf_setFreezing l q r b))

theorem raise_run (c : Settings) (src : Source) (e : Cond) (l : Live) : Run c l (l.raise src e) :=
  .single (.beside (beside_of_fields rfl rfl rfl rfl fun _ => rfl))

theorem setLamp_run (c : Settings) (p : Port) (b : Bool) (l : Live) : Run c l (l.setLamp p b) :=
  .single (.beside (beside_of_fields rfl rfl rfl rfl fun _ => rfl))

theorem ctxOf_foldl_unkeyIfReads (c : Settings) (q r : Patch) (ps : List Port) (l : Live) :
    ctxOf (ps.foldl (unkeyIfReads c q) l) r = ctxOf l r := by
  rw [ctxOf, foldl_unkeyIfReads_fla, ctxOf]

theorem foldl_unkeyIfReads_run (c : Settings) (q : Patch) (ps : List Port) (l : Live) :
    KeyRun c l (ps.foldl (unkeyIfReads c q) l) := KeyRun.foldl _ (fun l p _ => unkeyIfReads_run c q l p) l

/-- Once the ports that enter the floor of a context are unkeyed, it may be installed. -/
theorem installable_unkeyed (c : Settings) {q : Patch} {ctx : Context} {l : Live}
    (hfits : FloorLaw l → contextLawful ctx = true) :
    Installable ((entering l q ctx).foldl (unkeyIfReads c q) l) q ctx := by
  have hrest := (foldl_unkeyIfReads_run c q (entering l q ctx) l).tuned.rest
  refine ⟨fun hl => hfits ?_, fun p hp hnew => ?_⟩
  · exact floorLaw_congr hl (fun r => (ctxOf_foldl_unkeyIfReads c q r _ l).symm) (beyondFloors_fields hrest).2.2.1.symm
  · rw [ctxOf_foldl_unkeyIfReads] at hnew
    exact reads_foldl_unkeyIfReads c q _ l (List.mem_filter.2 ⟨hp, by simpa using hnew⟩)

theorem place_run (c : Settings) (q : Patch) {ctx : Context} {l : Live} (hfits : FloorLaw l → contextLawful ctx = true) :
    Run c l (placeFloor c q ctx l) := by
  rw [placeFloor_eq]
  exact (Run.of_keyRun (foldl_unkeyIfReads_run c q _ l)).tail (.context _ q ctx (installable_unkeyed c hfits))

theorem install_run (c : Settings) (q : Patch) {ctx : Context} {l : Live}
    (hfits : FloorLaw l → contextLawful ctx = true) : Run c l (install c q ctx l) :=
  (place_run c q hfits).trans (Run.of_keyRun (settleKeys_run c _))

theorem installRestricted_run (c : Settings) (q : Patch) {ctx : Context} {l : Live}
    (hfits : FloorLaw l → contextLawful ctx = true) : Run c l (installRestricted c q ctx l) :=
  (place_run c q hfits).trans <|
    (Run.of_keyRun (KeyRun.foldl _ (fun l p _ => keyLoser_run c q l p) _)).trans (Run.of_keyRun (settleKeys_run c _))

theorem unkeyIfReads_setOvr (c : Settings) (q r : Patch) (o : OverrideState) (l : Live) (p : Port) :
    unkeyIfReads c q (l.setOvr r o) p = (unkeyIfReads c q l p).setOvr r o := by
  unfold unkeyIfReads unkey leaveKeyed
  have hreads : reads (l.setOvr r o) p q = reads l p q := rfl
  have hcor : corIgnored c (l.setOvr r o) p = corIgnored c l p := rfl
  simp only [hreads, hcor, Live.setOvr_tx]
  repeat' split
  all_goals rfl

/-- A context installed as the saves of its patch are written. -/
theorem restore_run (c : Settings) (q : Patch) {ctx : Context} {o : OverrideState} {l : Live}
    (hfits : FloorLaw l → contextLawful ctx = true) (ho : FloorLaw l → SavesFit o) :
    Run c l (placeFloor c q ctx (l.setOvr q o)) := by
  have hcomm : ∀ (ps : List Port) (l : Live),
      ps.foldl (unkeyIfReads c q) (l.setOvr q o) = (ps.foldl (unkeyIfReads c q) l).setOvr q o := by
    intro ps
    induction ps with
    | nil => intro l; rfl
    | cons p ps ih => intro l; rw [List.foldl_cons, unkeyIfReads_setOvr, ih, List.foldl_cons]
  have hrest := (foldl_unkeyIfReads_run c q (entering l q ctx) l).tuned.rest
  have hback : FloorLaw ((entering l q ctx).foldl (unkeyIfReads c q) l) → FloorLaw l := fun hl =>
    floorLaw_congr hl (fun r => (ctxOf_foldl_unkeyIfReads c q r _ l).symm) (beyondFloors_fields hrest).2.2.1.symm
  rw [placeFloor_eq, hcomm]
  exact (Run.of_keyRun (foldl_unkeyIfReads_run c q _ l)).tail
    (.restore _ q ctx o (installable_unkeyed c hfits) fun hl => ho (hback hl))

/-! ### Floors that claims and releases leave -/

/-- A floor that a claim leaves holds the claimant, other claimants, and ports that were on it. -/
theorem mem_of_mem_claimedFloor {c : Settings} {l : Live} {q : Patch} {floor : List Port} {p x : Port}
    (h : x ∈ claimedFloor c l q floor p) : x = p ∨ x ∈ claimantsOf l q ∨ x ∈ floor := by
  have hone : ∀ {y : Port}, x ∈ [y] → x = y := fun h => by simpa using h
  unfold claimedFloor at h
  split at h
  · exact .inr (.inr h)
  · split at h
    · exact .inr (.inl (mem_of_mem_fourLowest h))
    · split at h
      · exact .inl (hone h)
      · split at h
        · split at h
          · exact .inr (.inl (mem_of_mem_selectedFloor h))
          · split at h
            · exact .inl (hone h)
            · exact .inr (.inr h)
        · exact .inr (.inr h)

theorem contextLawful_claimedFloor {c : Settings} {l : Live} {q : Patch} {floor : List Port} (p : Port)
    (h : contextLawful { ctxOf l q with floor := floor } = true) :
    contextLawful { ctxOf l q with floor := claimedFloor c l q floor p } = true := by
  obtain ⟨hfit, hrestriction, -⟩ := contextLawful_iff.1 h
  unfold claimedFloor
  split
  · exact h
  · rename_i hheld
    obtain ⟨hs, -⟩ := floorHeld_false (Bool.not_eq_true _ ▸ hheld)
    refine contextLawful_granting hrestriction hs ?_
    cases hm : (ctxOf l q).mode with
    | mix => simpa [floorFits] using length_fourLowest_le c l q
    | single =>
      have hkept : floorFits .single floor = true := by rwa [← hm]
      dsimp only
      split
      · rfl
      · split
        · split
          · exact decide_eq_true (length_toList_le _)
          · split
            · rfl
            · exact hkept
        · exact hkept

theorem contextLawful_fewer {ctx : Context} {floor : List Port} (hlen : floor.length ≤ ctx.floor.length)
    (h : contextLawful ctx = true) : contextLawful { ctx with floor := floor } = true := by
  obtain ⟨hfit, hrestriction, hsource⟩ := contextLawful_iff.1 h
  refine contextLawful_iff.2 ⟨?_, hrestriction, hsource.imp_right fun he => ?_⟩
  · cases hm : ctx.mode <;> rw [hm] at hfit <;> simp only [floorFits, decide_eq_true_eq] at hfit ⊢ <;> omega
  · rw [he] at hlen
    exact List.eq_nil_of_length_eq_zero (by simpa using hlen)

theorem mem_of_mem_abortedFloor {c : Settings} {l : Live} {q : Patch} {x : Port} (h : x ∈ abortedFloor c l q) :
    x ∈ claimantsOf l q ∨ x ∈ (ctxOf l q).floor := by
  unfold abortedFloor at h
  dsimp only at h
  split at h
  · exact .inr h
  · split at h
    · exact .inl (mem_of_mem_fourLowest h)
    · split at h
      · exact .inl (mem_of_mem_selectedFloor h)
      · split at h
        · rename_i p hp
          rw [List.mem_singleton] at h
          subst h
          exact .inl (List.mem_filter.1 (List.mem_filter.1 (mem_of_select hp)).1).1
        · exact .inr h

theorem contextLawful_abortedFloor {c : Settings} {l : Live} {q : Patch} (h : contextLawful (ctxOf l q) = true) :
    contextLawful { ctxOf l q with floor := abortedFloor c l q } = true := by
  obtain ⟨hfit, hrestriction, -⟩ := contextLawful_iff.1 h
  unfold abortedFloor
  dsimp only
  split
  · exact h
  · rename_i hheld
    obtain ⟨hs, -⟩ := floorHeld_false (Bool.not_eq_true _ ▸ hheld)
    refine contextLawful_granting hrestriction hs ?_
    cases hm : (ctxOf l q).mode with
    | mix => simpa [floorFits] using length_fourLowest_le c l q
    | single =>
      dsimp only
      split
      · exact decide_eq_true (length_toList_le _)
      · split
        · rfl
        · rwa [← hm]

/-! ### Claims and releases -/

theorem claim_run (c : Settings) (p : Port) (l : Live) : Run c l (claim c p l) := by
  unfold claim
  split
  · rename_i q _
    split
    · refine (setClaimants_run c q _ l).trans (Run.of_keyRun (installFloor_run c q _ _ ?_ ?_))
      · exact contextLawful_claimedFloor p
      · intro x hx
        rcases mem_of_mem_claimedFloor hx with rfl | h
        · exact .inl (by simp [claimantsOf_setClaimants])
        · exact h
    · exact .refl
  · exact .refl

theorem releaseIn_run (c : Settings) (p : Port) (l : Live) (q : Patch) : Run c l (releaseIn c p l q) := by
  unfold releaseIn
  split
  · dsimp only
    refine (setClaimants_run c q (dropPort p (claimantsOf l q)) l).trans ?_
    split
    · refine Run.of_keyRun (installFloor_run c q _ _ (fun h => ?_) fun x hx => ?_)
      · refine contextLawful_refilledFloor (contextLawful_fewer ?_ h)
        rw [ctxOf_setClaimants]
        exact length_dropPort_le p _
      · rw [ctxOf_setClaimants]
        exact (mem_of_mem_refilledFloor hx).imp_right fun h => ((mem_dropPort _ _ _).1 h).1
    · exact .refl
  · exact .refl

theorem release_run (c : Settings) (p : Port) (l : Live) : Run c l (release c p l) :=
  Run.foldl _ (fun l q _ => releaseIn_run c p l q) l

theorem setRx_run_of_idle (c : Settings) (l : Live) (p : Port) {x : RxPort} (hx : x.rx ≠ .active) (ht : x.talk = none) :
    Run c l (l.setRx p x) :=
  .single (.receive l p x (fun _ => by simp [rxLawful, ht]) fun ha => absurd ha hx)

/-- A receive machine that keeps its state and its talk-time timer, whatever its debounces. -/
theorem setRx_run_of_same (c : Settings) (l : Live) (p : Port) {x : RxPort} (hx : x.rx = (look l.rx p).rx)
    (ht : x.talk = (look l.rx p).talk) : Run c l (l.setRx p x) :=
  .single (.receive l p x (fun h => by rwa [rxLawful, hx, ht]) fun ha =>
    .inl (by rw [rxActive, ← hx, ha]; rfl))

theorem enterRxActive_run {c : Settings} {p : Port} {l : Live} (hi : corIgnored c l p = false) :
    Run c l (enterRxActive c p l) :=
  (Run.single (.receive l p _ (fun _ => by simp [rxLawful]) fun _ => .inr hi)).trans (claim_run c p _)

theorem leaveRxActive_run (c : Settings) (p : Port) {target : RxState} (ht : target ≠ .active) (l : Live) :
    Run c l (leaveRxActive c p target l) := (setRx_run_of_idle c l p ht rfl).trans (release_run c p _)

theorem startFreshCor_run (c : Settings) (p : Port) (l : Live) : Run c l (startFreshCor p l) :=
  setRx_run_of_same c l p rfl rfl

theorem beginIgnoring_run (c : Settings) (p : Port) (l : Live) : Run c l (beginIgnoring c p l) := by
  unfold beginIgnoring
  dsimp only
  refine (setRx_run_of_same c l p (x := { look l.rx p with cor := abandonFresh (look l.rx p).cor }) rfl rfl).trans ?_
  split
  · exact leaveRxActive_run c p (by decide) _
  · exact .refl

theorem liftLockout_run (c : Settings) (p : Port) (l : Live) : Run c l (liftLockout c p l) := by
  unfold liftLockout
  split
  · rename_i hlocked
    have hstopped : rxLawful (look l.rx p) = true → (look l.rx p).talk.isNone = true := by
      rw [rxLawful, hlocked]
      exact id
    have hquiet : Run c l (l.setRx p { look l.rx p with rx := .quiet }) := Run.single <|
      Step.receive l p { look l.rx p with rx := .quiet } hstopped fun ha => RxState.noConfusion ha
    dsimp only
    split
    · exact hquiet
    · exact hquiet.trans (startFreshCor_run c p _)
  · exact .refl

theorem emgRise_run (c : Settings) (p : Port) (l : Live) : Run c l (emgRise c p l) := by
  unfold emgRise
  split
  · rename_i q _
    split
    · rename_i h
      simp only [Bool.and_eq_true, List.contains_eq_mem, decide_eq_true_eq] at h
      refine Run.of_keyRun (installFloor_run c q _ l (contextLawful_claimedFloor p) fun x hx => ?_)
      rcases mem_of_mem_claimedFloor hx with rfl | hx
      · exact .inl h.1.2
      · exact hx
    · exact .refl
  · exact .refl

/-! ### Rings and switches -/

theorem emptyRing_run (c : Settings) (q : Patch) (l : Live) : Run c l (emptyRing q l) := by
  refine .single (.beside ⟨rfl, rfl, rfl, fun r => ?_, fun _ => .inl rfl⟩)
  rw [emptyRing, Live.setRing_rings, look_put]
  split
  · rename_i hr
    rw [hr]
  · rfl

theorem flushRing_run (c : Settings) (q : Patch) (l : Live) : Run c l (flushRing q l) := by
  have hfold : ∀ ps : List Port, (∀ p ∈ ps, reads l p q = true) →
      Run c l (ps.foldl (flushPort (look l.rings q).head) l) := by
    intro ps hps
    refine (foldl_keeps_mem
      (fun l' => Run c l l' ∧ l'.rings = l.rings ∧ ∀ p, reads l' p q = reads l p q) _ ps
      (fun l' p hp h => ?_) l ⟨.refl, rfl, fun _ => rfl⟩).1
    obtain ⟨hrun, hrings, hreads⟩ := h
    have hstep := Step.flush (c := c) l' p q ((hreads p).trans (hps p hp))
    rw [hrings] at hstep
    exact ⟨hrun.tail hstep, hrings, fun r => (reads_flushPort _ l' p r q).trans (hreads r)⟩
  exact (hfold (readersOf l q) fun p hp => (List.mem_filter.1 hp).2).trans (emptyRing_run c q _)

theorem arbitrateFresh_run (c : Settings) (l : Live) (q : Patch) : Run c l (arbitrateFresh c l q) := by
  refine (setClaimants_run c q _ l).trans (Run.of_keyRun (installFloor_run c q _ _ (fun h => ?_) fun x hx => ?_))
  · exact contextLawful_refilledFloor (contextLawful_fewer (Nat.zero_le _) h)
  · exact (mem_of_mem_refilledFloor hx).imp_right fun h => absurd h List.not_mem_nil

theorem ctxOf_defaultFloor (c : Settings) (l : Live) (q r : Patch) :
    ctxOf (defaultFloor c l q) r = if r = q then Context.default (activeRecord c l q).mode else ctxOf l r := by
  rw [ctxOf, defaultFloor, Live.setFloor_fla, look_put]
  split <;> rfl

theorem defaultFloor_run (d c : Settings) (l : Live) (q : Patch) : Run d l (defaultFloor c l q) := by
  refine .single (.beside ⟨rfl, rfl, rfl, fun _ => rfl, fun r => ?_⟩)
  rw [ctxOf_defaultFloor]
  split
  · exact .inr ⟨_, rfl⟩
  · exact .inl rfl

theorem startFresh_run (c : Settings) (l : Live) (q : Patch) : Run c l (startFresh c l q) :=
  (defaultFloor_run c c l q).trans (emptyRing_run c q _)

theorem swapFault_run (c : Settings) (involved : List Patch) (l : Live) (p : Port) :
    Run c l (swapFault c involved l p) := by
  unfold swapFault
  split
  · exact Run.of_keyRun (clearFault_run c p l)
  · exact .refl

theorem flipBanks_run (c : Settings) (l : Live) : Run c l (flipBanks l) :=
  .single (.beside (beside_of_fields rfl rfl rfl rfl fun _ => rfl))

theorem endSwitch_run (c : Settings) (involved : List Patch) (outcome : LastOutcome) (l : Live) :
    Run c l (endSwitch involved outcome l) :=
  .single (.beside (beside_of_fields rfl rfl rfl rfl fun _ => rfl))

theorem swap_run (c : Settings) (involved : List Patch) (outcome : LastOutcome) (l : Live) :
    Run c l (swap c involved outcome l) :=
  (flipBanks_run c l).trans <| (Run.foldl _ (fun l q _ => startFresh_run c l q) _).trans <|
    (Run.foldl _ (fun l p _ => swapFault_run c involved l p) _).trans <|
    (Run.foldl _ (fun l q _ => arbitrateFresh_run c l q) _).trans <|
    (endSwitch_run c involved outcome _).trans (raise_run c _ _ _)

theorem cutPatch_run (c : Settings) (l : Live) (q : Patch) : Run c l (cutPatch c l q) := by
  have hempty : Run c l (l.setCtx q { ctxOf l q with floor := [] }) :=
    .single (.context l q _
      ⟨fun hl => contextLawful_fewer (Nat.zero_le _) (hl q).1, fun p hp => absurd hp List.not_mem_nil⟩)
  exact hempty.trans <|
    (Run.of_keyRun (KeyRun.foldl _ (fun l p _ => unkey_run c p l) _)).trans (emptyRing_run c q _)

theorem force_run (c : Settings) (involved : List Patch) (l : Live) : Run c l (force c involved l) :=
  (Run.foldl _ (fun l q _ => cutPatch_run c l q) l).trans (swap_run c involved .forced _)

theorem thaw_floor_run (c : Settings) (l : Live) (q : Patch) : KeyRun c (l.setFreezing q false) (thawPatch c l q) :=
  installFloor_run c q _ _ contextLawful_abortedFloor fun _ hx => mem_of_mem_abortedFloor hx

theorem thawPatch_run (c : Settings) (l : Live) (q : Patch) : Run c l (thawPatch c l q) :=
  (setFreezing_run c q false l).trans (Run.of_keyRun (thaw_floor_run c l q))

theorem abort_run (c : Settings) (reason : AbortReason) (l : Live) : Run c l (abort c reason l) :=
  (Run.foldl _ (fun l q _ => thawPatch_run c l q) l).trans <| (endSwitch_run c _ _ _).trans (raise_run c _ _ _)

theorem setPending_run (c : Settings) (involved : List Patch) (grace : Nat) (l : Live) :
    Run c l (setPending involved grace l) :=
  (Run.foldl _ (fun l q _ => setFreezing_run c q true l) l).tail
    (.beside (beside_of_fields rfl rfl rfl rfl fun _ => rfl))

theorem idleTest_run (c : Settings) (l : Live) : Run c l (idleTest c l) := by
  rcases idleTest_cases c l with h | ⟨-, -, ⟨-, h⟩ | ⟨-, h⟩⟩
  · rw [h]
  · rw [h]
    exact swap_run c _ _ l
  · rw [h]
    exact force_run c _ l

theorem recordRaised_run (d c : Settings) (l : Live) : Run d l (recordRaised c l) :=
  .single (.beside (beside_of_fields (recordRaised_tx c l) (recordRaised_rx c l) (recordRaised_ovr c l)
    (recordRaised_rings c l) fun q => by rw [ctxOf, recordRaised_fla, ctxOf]))

theorem closeEvent_run (c : Settings) (l : Live) : Run c l (closeEvent c l) :=
  (idleTest_run c l).trans (recordRaised_run c c _)

/-! ### The console guest resource -/

theorem setGuests_run (c : Settings) (l : Live) (holder : Option Patch) (queue : List Patch) :
    Run c l { l with guestHolder := holder, guestQueue := queue } :=
  .single (.beside (beside_of_fields rfl rfl rfl rfl fun _ => rfl))

theorem attach_run (c : Settings) (q : Patch) (l : Live) : Run c l (attach c q l) :=
  (setGuests_run c l (some q) l.guestQueue).trans <|
    (Run.of_keyRun (KeyRun.foldl consolePorts (fun l p _ => unkey_run c p l) _)).trans <|
    (Run.of_keyRun (guestKeys_run c q _)).trans (Run.of_keyRun (settleKeys_run c _))

theorem unkeyGuests_run (c : Settings) (q : Patch) (l : Live) :
    KeyRun c l (consolePorts.foldl (fun l p => if reads l p q then unkey c p l else l) l) :=
  foldl_unkeyIfReads_run c q consolePorts l

theorem detach_run (c : Settings) (q : Patch) (l : Live) : Run c l (detach c q l) :=
  (Run.of_keyRun (unkeyGuests_run c q l)).trans <|
    (setGuests_run c _ none _).trans (Run.of_keyRun (settleKeys_run c _))

theorem requestGuest_run (c : Settings) (q : Patch) (l : Live) : Run c l (requestGuest c q l) := by
  unfold requestGuest
  split
  · exact attach_run c q l
  · exact setGuests_run c l l.guestHolder _

theorem giveUpGuest_run (c : Settings) (q : Patch) (l : Live) : Run c l (giveUpGuest c q l) := by
  unfold giveUpGuest
  split
  · split
    · exact detach_run c q l
    · exact (setGuests_run c l l.guestHolder _).trans (attach_run c _ _)
  · exact setGuests_run c l l.guestHolder _

theorem pauseGuests_run (c : Settings) (q : Patch) (l : Live) : KeyRun c l (pauseGuests c q l) := by
  unfold pauseGuests
  split
  · exact unkeyGuests_run c q l
  · exact .refl

theorem resumeGuests_run (c : Settings) (q : Patch) (l : Live) : KeyRun c l (resumeGuests c q l) := by
  unfold resumeGuests
  split
  · exact guestKeys_run c q l
  · exact .refl

theorem setGen_run (c : Settings) (l : Live) (g : CadenceGen) : Run c l { l with gen := g } :=
  .single (.beside (beside_of_fields rfl rfl rfl rfl fun _ => rfl))

theorem startCadence_run (c : Settings) (l : Live) : Run c l (startCadence c l) := by
  unfold startCadence
  split
  · exact setGen_run c l _
  · exact .refl

theorem stopCadence_run (c : Settings) (l : Live) : Run c l (stopCadence l) := by
  unfold stopCadence
  split
  · exact .refl
  · exact setGen_run c l _

/-! ### Maydays -/

theorem exemptPort_run (c : Settings) (p : Port) (l : Live) : Run c l (exemptPort c p l) := by
  unfold exemptPort
  split
  · rename_i ha
    exact .single (.receive l p _ (fun _ => by simp [rxLawful]) fun _ => .inl ha)
  · exact liftLockout_run c p l

theorem endExemption_run (c : Settings) (p : Port) (l : Live) : Run c l (endExemption c p l) := by
  unfold endExemption
  split
  · rename_i ha
    have hactive : (look l.rx p).rx = .active := of_decide_eq_true ha
    exact .single (.receive l p { look l.rx p with talk := talkTimerStart c l p }
      (fun _ => by simp [rxLawful, hactive]) fun _ => .inl ha)
  · exact .refl

theorem announceMayday_run (c : Settings) (q : Patch) (p : Port) (l : Live) : Run c l (announceMayday c q p l) :=
  (exemptPort_run c p l).trans <| (setLamp_run c p true _).trans <| (requestGuest_run c q _).trans (raise_run c _ _ _)

/-- Contexts stay but for their floors. -/
def ContextsKept (l l' : Live) : Prop := ∀ q, ctxOf l' q = { ctxOf l q with floor := (ctxOf l' q).floor }

theorem ContextsKept.trans {a b d : Live} (h : ContextsKept a b) (k : ContextsKept b d) : ContextsKept a d := by
  intro q
  rw [k q, h q]

theorem ContextsKept.of_same {l l' : Live} (h : ∀ q, ctxOf l' q = ctxOf l q) : ContextsKept l l' := by
  intro q
  rw [h]

theorem ContextsKept.foldl {α : Type} {f : Live → α → Live} (xs : List α) (hf : ∀ l, ∀ x ∈ xs, ContextsKept l (f l x))
    (l : Live) : ContextsKept l (xs.foldl f l) :=
  foldl_keeps_mem (fun l' => ContextsKept l l') f xs (fun _ x hx h => h.trans (hf _ x hx)) l fun _ => rfl

theorem ContextsKept.source {l l' : Live} (h : ContextsKept l l') (q : Patch) :
    (ctxOf l' q).source = (ctxOf l q).source := by rw [h q]

theorem thawPatch_contexts (c : Settings) (l : Live) (q : Patch) : ContextsKept l (thawPatch c l q) :=
  (ContextsKept.of_same fun r => ctxOf_setFreezing l q r false).trans (thaw_floor_run c l q).tuned.ctx

theorem abort_contexts (c : Settings) (reason : AbortReason) (l : Live) : ContextsKept l (abort c reason l) :=
  (ContextsKept.foldl l.switch.involved (fun l q _ => thawPatch_contexts c l q) l).trans (.of_same fun _ => rfl)

theorem length_maydayFloor_le (c : Settings) (l : Live) (q : Patch) (mp : Port) (floor : List Port) :
    (maydayFloor c l q mp floor).length ≤ 1 := by
  unfold maydayFloor
  split
  · exact Nat.le_refl 1
  · split
    · exact Nat.le_refl 1
    · exact length_toList_le _

theorem length_restoredMaydayFloor_le (c : Settings) (l : Live) (q : Patch) (mp : Port) (saved : List Port) :
    (restoredMaydayFloor c l q mp saved).length ≤ 1 := by
  unfold restoredMaydayFloor
  split
  · exact Nat.le_refl 1
  · split
    · split
      · exact Nat.le_refl 1
      · exact length_toList_le _
    · exact length_toList_le _

theorem contextLawful_mayday {floor : List Port} (h : floor.length ≤ 1) (p : Port) :
    contextLawful { mode := .single, floor := floor, restriction := some p, source := .receive } = true :=
  contextLawful_iff.2 ⟨decide_eq_true h, .inr rfl, .inl rfl⟩

theorem floorFits_of_contextLawful {ctx : Context} (h : contextLawful ctx = true) :
    floorFits ctx.mode ctx.floor = true := (contextLawful_iff.1 h).1

/-- A mayday begins on a patch that is not under alert. -/
theorem beginMayday_run {c : Settings} {q : Patch} {l : Live} (p : Port) (hs : underAlert l q = false) :
    Run c l (beginMayday c q p l) := by
  have hbase : Run c l (maydayBase c q l) ∧ (ctxOf (maydayBase c q l) q).source = .receive := by
    have hreceive := source_receive_of_not_alert hs
    unfold maydayBase
    split
    · exact ⟨abort_run c _ l, (abort_contexts c .mayday l).source q |>.trans hreceive⟩
    · exact ⟨.refl, hreceive⟩
  obtain ⟨hrun, hsource⟩ := hbase
  refine hrun.trans ?_
  have hsaves : Run c (maydayBase c q l) ((maydayBase c q l).setOvr q
      { look (maydayBase c q l).ovr q with save1 := some (ctxOf (maydayBase c q l) q), mayday := some p }) :=
    .single (.saves _ q _ fun hl => ⟨floorFits_of_contextLawful (hl q).1, (hl q).2.2⟩)
  refine hsaves.trans ((installRestricted_run c q fun _ => ?_).trans (announceMayday_run c q p _))
  exact contextLawful_iff.2 ⟨decide_eq_true (length_maydayFloor_le ..), .inr rfl, .inl hsource⟩

theorem emergencyCase_begins {c : Settings} {l : Live} {p : Port} {q : Patch} (h : emergencyCase c l p = .begins q) :
    portPatch c l p = some q ∧ talkMember c l q p = true ∧ (look l.ovr q).mayday = none ∧ underAlert l q = false := by
  unfold emergencyCase at h
  split at h
  · exact absurd h (by simp)
  · rename_i r hr
    split at h
    · exact absurd h (by simp)
    · rename_i htalk
      split at h
      · exact absurd h (by simp)
      · rename_i hmayday
        split at h
        · split at h <;> exact absurd h (by simp)
        · rename_i halert
          obtain rfl := EmergencyCase.begins.inj h
          exact ⟨hr, by simpa using htalk, by simpa using hmayday, by simpa using halert⟩

theorem latched_run (c : Settings) (q : Patch) (p : Port) (l : Live) :
    Run c l ((l.setOvr q { look l.ovr q with latch := some p }).raise (patchSource q) .maydayHeld) :=
  (Run.single (.saves l q { look l.ovr q with latch := some p } fun hl => (hl q).2)).trans (raise_run c _ _ _)

theorem emergencyEvent_run (c : Settings) (p : Port) (l : Live) : Run c l (emergencyEvent c p l) := by
  unfold emergencyEvent
  split
  · exact .refl
  · exact .refl
  · exact .refl
  · exact latched_run c _ p l
  · rename_i q h
    exact beginMayday_run p (emergencyCase_begins h).2.2.2

theorem length_filter_contains_le (ps qs : List Port) : (ps.filter (fun p => qs.contains p)).length ≤ ps.length :=
  List.length_filter_le _ _

theorem floorFits_rebuiltFloor {c : Settings} {l : Live} {q : Patch} {mode : Mode} {saved : List Port}
    (h : floorFits mode saved = true) : floorFits mode (rebuiltFloor c l q mode saved) = true := by
  unfold rebuiltFloor
  dsimp only
  cases mode with
  | single =>
    dsimp only
    split
    · rfl
    · exact decide_eq_true (length_toList_le _)
  | mix =>
    have hkept := (length_filter_contains_le saved (claimantsOf l q)).trans (of_decide_eq_true h)
    refine decide_eq_true ((length_portSet_le _).trans ?_)
    rw [List.length_append]
    have hmore := length_selectMany_le (arbKey c l q)
      (4 - (saved.filter (fun p => (claimantsOf l q).contains p)).length)
      ((claimantsOf l q).filter (fun p => !(saved.filter (fun p => (claimantsOf l q).contains p)).contains p))
    omega

theorem contextLawful_rebuilt {c : Settings} {l : Live} {q : Patch} {sv : Context} (h : floorFits sv.mode sv.floor = true) :
    contextLawful { mode := sv.mode, floor := rebuiltFloor c l q sv.mode sv.floor, restriction := none,
                    source := .receive } = true :=
  contextLawful_iff.2 ⟨floorFits_rebuiltFloor h, .inl rfl, .inl rfl⟩

/-- A save, or the default context where there is none, holds a floor that fits. -/
theorem floorFits_save {save : Option Context} (h : saveLawful save = true) (m : Mode) :
    floorFits (save.getD (Context.default m)).mode (save.getD (Context.default m)).floor = true := by
  cases save with
  | none => exact floorFits_of_contextLawful (contextLawful_default m)
  | some ctx => exact h

/-- A mayday's save is dropped, and its port, lamp and guest resource are let go. -/
theorem closeMayday_run (c : Settings) (q : Patch) (p : Port) (l : Live) :
    Run c l (giveUpGuest c q
      ((endExemption c p (l.setOvr q { look l.ovr q with save1 := none, mayday := none })).setLamp p false)) :=
  (Run.single (.saves l q { look l.ovr q with save1 := none, mayday := none } fun hl => ⟨rfl, (hl q).2.2⟩)).trans <|
    (endExemption_run c p _).trans <|
    (setLamp_run c p false _).trans (giveUpGuest_run c q _)

theorem endMayday_run (c : Settings) (q : Patch) (p : Port) (l : Live) : Run c l (endMayday c q p l) := by
  let sv := (look l.ovr q).save1.getD (Context.default (activeRecord c l q).mode)
  let rebuilt : Context :=
    { mode := sv.mode, floor := rebuiltFloor c l q sv.mode sv.floor, restriction := none, source := .receive }
  have hinstalled : Run c l (install c q rebuilt l) :=
    install_run c q fun hl => contextLawful_rebuilt (floorFits_save (hl q).2.1 _)
  exact hinstalled.trans (closeMayday_run c q p _)

/-! ### Alerts -/

theorem floorFits_nil (m : Mode) : floorFits m [] = true := by cases m <;> rfl

theorem contextLawful_alerted {ctx : Context} (h : contextLawful ctx = true) :
    contextLawful { ctx with source := .alert, floor := [] } = true := by
  obtain ⟨-, hrestriction, -⟩ := contextLawful_iff.1 h
  exact contextLawful_iff.2 ⟨floorFits_nil ctx.mode, hrestriction, .inr rfl⟩

theorem beginAlert_run (c : Settings) (seconds : Nat) (l : Live) (q : Patch) : Run c l (beginAlert c seconds l q) := by
  have hsaves : Run c l
      (l.setOvr q { look l.ovr q with save2 := some (ctxOf l q), timer := alertTimerOf seconds }) :=
    .single (.saves l q _ fun hl => ⟨(hl q).2.1, floorFits_of_contextLawful (hl q).1⟩)
  refine hsaves.trans ((install_run c q fun hl => contextLawful_alerted (hl q).1).trans ?_)
  exact (flushRing_run c q _).trans <| (Run.of_keyRun (pauseGuests_run c q _)).trans (startCadence_run c _)

theorem beginAlerts_run (c : Settings) (seconds : Nat) (qs : List Patch) (l : Live) :
    Run c l (beginAlerts c seconds qs l) := by
  have hfold := Run.foldl (c := c) qs fun l q _ => beginAlert_run c seconds l q
  unfold beginAlerts
  dsimp only
  split
  · exact (abort_run c _ l).trans (hfold _)
  · exact hfold l

theorem contextLawful_restored {c : Settings} {l : Live} {q : Patch} {sv : Context}
    (h : floorFits sv.mode sv.floor = true) : contextLawful (restoredContext c l q sv) = true := by
  unfold restoredContext
  split
  · exact contextLawful_rebuilt h
  · exact contextLawful_mayday (length_restoredMaydayFloor_le ..) _

theorem endAlertLatched_run (c : Settings) (q : Patch) (p : Port) {sv : Context} {l : Live}
    (hsv : FloorLaw l → floorFits sv.mode sv.floor = true) : Run c l (endAlertLatched c q p sv l) := by
  let rebuilt : Context :=
    { mode := sv.mode, floor := rebuiltFloor c l q sv.mode sv.floor, restriction := none, source := .receive }
  have hsaves : Run c l (l.setOvr q { look l.ovr q with
      save1 := some rebuilt, save2 := none, mayday := some p, latch := none, timer := .stopped }) :=
    .single (.saves l q _ fun hl => ⟨floorFits_rebuiltFloor (hsv hl), rfl⟩)
  exact hsaves.trans <| (install_run c q fun _ => contextLawful_mayday (length_restoredMaydayFloor_le ..) p).trans
    (announceMayday_run c q p _)

theorem endAlert_run (c : Settings) (l : Live) (q : Patch) : Run c l (endAlert c l q) := by
  have hsv : FloorLaw l → _ := fun hl => floorFits_save (hl q).2.2 (activeRecord c l q).mode
  have hend : ∀ l', Run c l l' → Run c l ((stopCadence (resumeGuests c q l')).raise (patchSource q) .alertEnd) :=
    fun l' h => h.trans <| (Run.of_keyRun (resumeGuests_run c q l')).trans <|
      (stopCadence_run c _).trans (raise_run c _ _ _)
  unfold endAlert
  dsimp only
  split
  · have hplaced := restore_run c q (o := { look l.ovr q with save2 := none, timer := .stopped })
      (fun hl => contextLawful_restored (c := c) (l := l.setOvr q { look l.ovr q with save2 := none, timer := .stopped })
        (q := q) (hsv hl)) fun hl => ⟨(hl q).2.1, rfl⟩
    exact hend _ (hplaced.trans (Run.of_keyRun (settleKeys_run c _)))
  · exact hend _ (endAlertLatched_run c q _ hsv)

/-! ### Events -/

theorem corRise_run (c : Settings) (p : Port) (l : Live) : Run c l (corRise p c l) := by
  unfold corRise
  dsimp only
  refine (setRx_run_of_same c l p (x := { look l.rx p with cor := Debounce.settled true }) rfl rfl).trans ?_
  split
  · split
    · exact raise_run c _ _ _
    · exact .refl
  · rename_i hi
    unfold receiveRise
    split
    · exact enterRxActive_run (Bool.not_eq_true _ ▸ hi)
    · exact .refl

theorem corFall_run (c : Settings) (p : Port) (l : Live) : Run c l (corFall p c l) := by
  unfold corFall
  dsimp only
  refine (setRx_run_of_same c l p (x := { look l.rx p with cor := Debounce.settled false }) rfl rfl).trans ?_
  split
  · exact .refl
  · unfold receiveFall
    split
    · exact leaveRxActive_run c p (by decide) _
    · exact setRx_run_of_idle c _ p RxState.noConfusion rfl
    · exact .refl

theorem setEmg_run (c : Settings) (p : Port) (d : Debounce) (l : Live) : Run c l (l.setRx p { look l.rx p with emg := d }) :=
  setRx_run_of_same c l p rfl rfl

theorem emergencyRise_run (c : Settings) (p : Port) (l : Live) : Run c l (emergencyRise p c l) :=
  (setEmg_run c p _ l).trans <| (raise_run c _ _ _).trans <| (emgRise_run c p _).trans (emergencyEvent_run c p _)

theorem talkTimeUp_run (c : Settings) (p : Port) (l : Live) : Run c l (talkTimeUp p c l) :=
  (leaveRxActive_run c p RxState.noConfusion l).trans (raise_run c _ _ _)

theorem hangUp_run (c : Settings) (p : Port) (l : Live) : KeyRun c l (hangUp p c l) :=
  (KeyRun.single (.leave l p .dormant (.inl rfl))).trans (settleKeys_run c _)

theorem confirmUp_run (c : Settings) (p : Port) (l : Live) : Run c l (confirmUp p c l) :=
  (Run.of_keyRun (KeyRun.single (.leave l p .fault (.inr rfl)))).trans (raise_run c _ _ _)

/-! ### Orders on ports -/

theorem portRecordChanged_run (c : Settings) (p : Port) (was : Bool) (l : Live) :
    Run c l (portRecordChanged c p was l) := by
  unfold portRecordChanged
  repeat' split
  · exact .refl
  · exact beginIgnoring_run c p l
  · exact startFreshCor_run c p l
  · exact .refl

theorem clearPort_run (c : Settings) (p : Port) (l : Live) : Run c l (clearPort c p l) := by
  unfold clearPort
  split
  · exact (Run.of_keyRun ((clearFault_run c p l).trans (settleKeys_run c _))).trans (liftLockout_run c p _)
  · exact liftLockout_run c p l

/-! ### Edits -/

theorem clearRemovedFaults_run (c : Settings) (old new : PatchRec) (l : Live) :
    KeyRun c l (clearRemovedFaults old new l) := by
  refine KeyRun.foldl _ (fun l p _ => ?_) l
  split
  · exact clearFault_run c p l
  · exact .refl

theorem freeRemoved_run (c : Settings) (old new : PatchRec) (l : Live) (p : Port) :
    KeyRun c l (freeRemoved c old new l p) := by
  unfold freeRemoved
  split
  · exact (clearFault_run c p l).trans (settleKeys_run c _)
  · exact .refl

theorem liveDefine_run (c : Settings) (q : Patch) (old : PatchRec) (l : Live) : Run c l (liveDefine c q old l) :=
  (defaultFloor_run c c l q).trans <| (flushRing_run c q _).trans <| (arbitrateFresh_run c _ q).trans
    (Run.of_keyRun (KeyRun.foldl _ (fun l p _ => freeRemoved_run c old _ l p) _))

theorem liveDelete_run (c : Settings) (q : Patch) (old : PatchRec) (l : Live) : Run c l (liveDelete c q old l) :=
  (Run.of_keyRun (clearRemovedFaults_run c old _ l)).trans <| (defaultFloor_run c c _ q).trans (flushRing_run c q _)

theorem clearPatch_run (old c : Settings) (l : Live) (q : Patch) : Run c l (clearPatch old c l q) := by
  unfold clearPatch
  split
  · exact liveDelete_run c q _ l
  · exact defaultFloor_run c c l q

theorem removeListener_run (c : Settings) (q : Patch) (p : Port) (l : Live) : KeyRun c l (removeListener c q p l) :=
  (unkeyIfReads_run c q l p).trans (clearFault_run c p _)

theorem mem_of_mem_withoutTalker {ch : LaneChange} {old : Option MemberRec} {ps : List Port} {x : Port}
    (h : x ∈ withoutTalker ch old ps) : x ∈ ps := by
  unfold withoutTalker at h
  split at h
  · split at h
    · exact ((mem_dropPort _ _ _).1 h).1
    · exact h
  · exact h

theorem length_withoutTalker_le (ch : LaneChange) (old : Option MemberRec) (ps : List Port) :
    (withoutTalker ch old ps).length ≤ ps.length := by
  unfold withoutTalker
  split
  · split
    · exact length_dropPort_le _ _
    · exact Nat.le_refl _
  · exact Nat.le_refl _

theorem mem_of_mem_editedFloor {c : Settings} {l : Live} {q : Patch} {left : List Port} {new : Option Port} {x : Port}
    (h : x ∈ editedFloor c l q left new) : new = some x ∨ x ∈ claimantsOf l q ∨ x ∈ left := by
  unfold editedFloor at h
  split at h
  · rcases mem_of_mem_claimedFloor h with rfl | h
    · exact .inl rfl
    · exact .inr h
  · exact .inr (mem_of_mem_refilledFloor h)

theorem contextLawful_editedFloor {c : Settings} {l : Live} {q : Patch} {left : List Port} (new : Option Port)
    (h : contextLawful { ctxOf l q with floor := left } = true) :
    contextLawful { ctxOf l q with floor := editedFloor c l q left new } = true := by
  unfold editedFloor
  split
  · exact contextLawful_claimedFloor _ h
  · exact contextLawful_refilledFloor h

/-- The claimants that an edit arbitrates over (R16, R17). -/
def editClaimants (ch : LaneChange) (old new : Option MemberRec) (l : Live) (q : Patch) : List Port :=
  match newClaimant l ch new with
  | some p => addPort p (withoutTalker ch old (claimantsOf l q))
  | none => withoutTalker ch old (claimantsOf l q)

/-- The live state in which an edit has unkeyed the listener it removes (R16). -/
def withoutListener (c : Settings) (q : Patch) (old new : Option MemberRec) (l : Live) : Live :=
  match old with
  | some m => if (laneChange old new).removedWhole || (laneChange old new).removedListen then
      removeListener c q m.port l else l
  | none => l

/-- The live state over which an edit arbitrates. -/
def editBase (c : Settings) (q : Patch) (old new : Option MemberRec) (l : Live) : Live :=
  let l := withoutListener c q old new l
  l.setClaimants q (editClaimants (laneChange old new) old new l q)

/-- An edit of rights: the listener removed is unkeyed, the claimants are put right, and the floor is arbitrated once
where something calls for it (R15 to R18). -/
theorem editRights_eq (c : Settings) (q : Patch) (old new : Option MemberRec) (l : Live) :
    editRights c q old new l =
      let ch := laneChange old new
      let t := withoutListener c q old new l
      let floor := (ctxOf t q).floor
      let left := withoutTalker ch old floor
      let fresh := newClaimant t ch new
      let base := editBase c q old new l
      if left ≠ floor || fresh.isSome || rankChanged old new then
        installFloor c q (editedFloor c base q left fresh) base
      else settleKeys c base := by
  unfold editRights editBase editClaimants withoutListener
  rfl

theorem withoutListener_run (c : Settings) (q : Patch) (old new : Option MemberRec) (l : Live) :
    KeyRun c l (withoutListener c q old new l) := by
  unfold withoutListener
  split
  · split
    · exact removeListener_run c q _ l
    · exact .refl
  · exact .refl

theorem ctxOf_editBase (c : Settings) (q r : Patch) (old new : Option MemberRec) (l : Live) :
    ctxOf (editBase c q old new l) r = ctxOf (withoutListener c q old new l) r := ctxOf_setClaimants _ q r _

theorem claimantsOf_editBase (c : Settings) (q : Patch) (old new : Option MemberRec) (l : Live) :
    claimantsOf (editBase c q old new l) q =
      editClaimants (laneChange old new) old new (withoutListener c q old new l) q := by
  rw [editBase, claimantsOf_setClaimants, if_pos rfl]

theorem mem_editClaimants_of_fresh {ch : LaneChange} {old new : Option MemberRec} {l : Live} {q : Patch} {p : Port}
    (h : newClaimant l ch new = some p) : p ∈ editClaimants ch old new l q := by
  simp [editClaimants, h]

theorem editRights_run (c : Settings) (q : Patch) (old new : Option MemberRec) (l : Live) :
    Run c l (editRights c q old new l) := by
  rw [editRights_eq]
  dsimp only
  have hbase : Run c l (editBase c q old new l) :=
    (Run.of_keyRun (withoutListener_run c q old new l)).trans (setClaimants_run c q _ _)
  refine hbase.trans ?_
  split
  · refine Run.of_keyRun (installFloor_run c q _ _ (fun h => ?_) fun x hx => ?_)
    · refine contextLawful_editedFloor _ (contextLawful_fewer ?_ h)
      rw [ctxOf_editBase]
      exact length_withoutTalker_le ..
    · rcases mem_of_mem_editedFloor hx with hfresh | hclaims | hleft
      · refine .inl ?_
        rw [claimantsOf_editBase]
        exact mem_editClaimants_of_fresh hfresh
      · exact .inl hclaims
      · refine .inr ?_
        rw [ctxOf_editBase]
        exact mem_of_mem_withoutTalker hleft
  · exact Run.of_keyRun (settleKeys_run c _)

theorem liveEdit_run (c : Settings) (q : Patch) (old new : Option MemberRec) (l : Live) :
    Run c l (liveEdit c q old new l) := by
  unfold liveEdit
  split
  · exact .refl
  · exact editRights_run c q old new l

end Sys2Proof.LiveRuns

/-! SUPPORT. Every step keeps ports, floors and readers lawful. -/

namespace Sys2Proof.SoundSteps

open Sys2Proof.Machine Sys2Proof.Safety Sys2Proof.Claims Sys2Proof.Resets Sys2Proof.ResetOrders Sys2Proof.Signalling
  Sys2Proof.Keying Sys2Proof.LiveSteps Sys2Proof.LiveRuns

/-! ### Orders as runs -/

theorem setPort_run (body : List Byte) (c : Settings) (l : Live) :
    Run (orderSetPort body c l).cfg l (orderSetPort body c l).live := by
  unfold orderSetPort
  repeat' split
  · exact .refl
  · exact (portRecordChanged_run _ _ _ _).trans (closeEvent_run _ _)
  · exact .refl

theorem orderClearPort_run (body : List Byte) (c : Settings) (l : Live) :
    Run (orderClearPort body c l).cfg l (orderClearPort body c l).live := by
  unfold orderClearPort
  repeat' split
  · exact .refl
  · exact .refl
  · exact (clearPort_run c _ l).trans (closeEvent_run _ _)

theorem definePatch_run (body : List Byte) (c : Settings) (l : Live) :
    Run (orderDefinePatch body c l).cfg l (orderDefinePatch body c l).live := by
  unfold orderDefinePatch
  split
  · exact .refl
  · split
    · dsimp only
      split
      · exact .refl
      · dsimp only
        split
        · exact (liveDefine_run _ _ _ _).trans (closeEvent_run _ _)
        · exact .refl
    · exact .refl

theorem setMember_run (body : List Byte) (c : Settings) (l : Live) :
    Run (orderSetMember body c l).cfg l (orderSetMember body c l).live := by
  unfold orderSetMember
  split
  · exact .refl
  · split
    · dsimp only
      split
      · exact .refl
      · dsimp only
        split
        · exact (liveEdit_run _ _ _ _ _).trans (closeEvent_run _ _)
        · exact .refl
    · exact .refl

theorem deletePatch_run (body : List Byte) (c : Settings) (l : Live) :
    Run (orderDeletePatch body c l).cfg l (orderDeletePatch body c l).live := by
  unfold orderDeletePatch
  split
  · exact .refl
  · split
    · dsimp only
      split
      · exact .refl
      · dsimp only
        split
        · exact (liveDelete_run _ _ _ _).trans (closeEvent_run _ _)
        · split
          · exact defaultFloor_run _ _ _ _
          · exact .refl
    · exact .refl

theorem clearBank_run (body : List Byte) (c : Settings) (l : Live) :
    Run (orderClearBank body c l).cfg l (orderClearBank body c l).live := by
  unfold orderClearBank
  split
  · exact .refl
  · split
    · split
      · exact .refl
      · dsimp only
        split
        · exact (Run.foldl _ (fun l q _ => clearPatch_run c _ l q) _).trans (closeEvent_run _ _)
        · exact .refl
    · exact .refl

theorem startSwitch_run (c : Settings) (grace : Nat) (l : Live) : Run c l (startSwitch c grace l) := by
  unfold startSwitch
  dsimp only
  split
  · exact (swap_run c _ _ l).trans (closeEvent_run _ _)
  · split
    · exact (force_run c _ l).trans (closeEvent_run _ _)
    · exact setPending_run c _ _ l

theorem switchPlan_run (body : List Byte) (c : Settings) (l : Live) :
    Run (orderSwitchPlan body c l).cfg l (orderSwitchPlan body c l).live := by
  unfold orderSwitchPlan
  split
  · exact .refl
  · dsimp only
    split
    · exact .refl
    · exact startSwitch_run c _ l

theorem abortSwitch_run (body : List Byte) (c : Settings) (l : Live) :
    Run (orderAbortSwitch body c l).cfg l (orderAbortSwitch body c l).live := by
  unfold orderAbortSwitch
  repeat' split
  · exact .refl
  · exact (abort_run c _ l).trans (closeEvent_run _ _)
  · exact .refl

theorem declareMayday_run (body : List Byte) (c : Settings) (l : Live) :
    Run (orderDeclareMayday body c l).cfg l (orderDeclareMayday body c l).live := by
  unfold orderDeclareMayday
  dsimp only
  repeat' split
  · exact .refl
  · exact .refl
  · exact .refl
  · exact (emergencyEvent_run c _ l).trans (closeEvent_run _ _)

theorem clearMayday_run (body : List Byte) (c : Settings) (l : Live) :
    Run (orderClearMayday body c l).cfg l (orderClearMayday body c l).live := by
  unfold orderClearMayday
  repeat' split
  · exact .refl
  · exact .refl
  · exact .refl
  · exact .refl
  · dsimp only
    exact (endMayday_run c _ _ l).trans (closeEvent_run _ _)

theorem soundAlert_run (body : List Byte) (c : Settings) (l : Live) :
    Run (orderSoundAlert body c l).cfg l (orderSoundAlert body c l).live := by
  unfold orderSoundAlert
  dsimp only
  repeat' split
  · exact .refl
  · exact .refl
  · exact (beginAlerts_run c (alertSeconds (wordAt body 1)) (newlyAlerted l (readPatchSet (body.getD 0 0))) l).trans
      (closeEvent_run c _)

theorem cancelAlert_run (body : List Byte) (c : Settings) (l : Live) :
    Run (orderCancelAlert body c l).cfg l (orderCancelAlert body c l).live := by
  unfold orderCancelAlert
  split
  · exact .refl
  · exact (Run.foldl _ (fun l q _ => endAlert_run c l q) l).trans (closeEvent_run _ _)

/-- An order that carries out its work beside the ports, floors and rings. -/
theorem run_of_same {c : Settings} {l l' : Live} (htx : l'.tx = l.tx) (hrx : l'.rx = l.rx) (hovr : l'.ovr = l.ovr)
    (hrings : l'.rings = l.rings) (hfla : l'.fla = l.fla) : Run c l l' :=
  .single (.beside (beside_of_fields htx hrx hovr hrings fun q => by rw [ctxOf, hfla, ctxOf]))

/-- Every order is a run under the settings it leaves. -/
theorem OrderOutcome.run {c : Settings} {l : Live} {r : OrderResult} (h : OrderOutcome c l r) : Run r.cfg l r.live := by
  cases h with
  | refused st => exact .refl
  | answered data => exact .refl
  | setPort body => exact setPort_run body c l
  | clearPort body => exact orderClearPort_run body c l
  | definePatch body => exact definePatch_run body c l
  | setMember body => exact setMember_run body c l
  | deletePatch body => exact deletePatch_run body c l
  | clearBank body => exact clearBank_run body c l
  | switchPlan body => exact switchPlan_run body c l
  | abortSwitch body => exact abortSwitch_run body c l
  | declareMayday body => exact declareMayday_run body c l
  | clearMayday body => exact clearMayday_run body c l
  | soundAlert body => exact soundAlert_run body c l
  | cancelAlert body => exact cancelAlert_run body c l
  | loadTone body =>
    unfold orderLoadTone
    repeat' split
    all_goals exact .refl
  | setCadence body =>
    unfold orderSetCadence
    repeat' split
    · exact .refl
    · exact .refl
    · exact setGen_run _ l _
  | flags tooHigh f keysw =>
    unfold flagOperation
    split
    all_goals exact .refl
  | lock hard plk keysw =>
    unfold lockOperation
    split
    all_goals exact .refl
  | setReportMask body =>
    unfold orderSetReportMask
    repeat' split
    all_goals exact .refl
  | clearConditions body =>
    unfold orderClearConditions
    repeat' split
    · exact .refl
    · exact .refl
    · exact run_of_same rfl rfl rfl rfl rfl

/-! ### Transmit machines in the work of a frame -/

/-- A transmit machine that goes on: lawful and keyed as it was, and its reader where the ring has it. -/
structure GoesOn (l : Live) (p : Port) (t : TxPort) : Prop where
  lawful : txLawful (look l.tx p) = true → txLawful t = true
  sameKeyed : keyed t = keyed (look l.tx p)
  reader : ∀ z, t.reader = some z → ∃ r, (look l.tx p).reader = some r ∧ r.ring = z.ring ∧
    (placeLawful (look l.rings r.ring).head r = true → placeLawful (look l.rings r.ring).head z = true)

theorem sound_setTx {l : Live} {p : Port} {t : TxPort} (h : GoesOn l p t) (hl : Sound l) : Sound (l.setTx p t) := by
  obtain ⟨hport, hfloor, hgrant, hlag⟩ := hl
  refine ⟨fun r => ⟨?_, (hport r).2⟩, hfloor, fun r q hon => ?_, fun r z hk hz => ?_⟩
  · rw [Live.setTx_tx, look_put]
    split
    · exact h.lawful (hport p).1
    · exact (hport r).1
  · rw [Bool.eq_false_iff]
    intro hreads
    have hbefore : reads l r q = true := by
      obtain ⟨hk, z, hz, hq⟩ := reads_iff.1 hreads
      rw [Live.setTx_tx, look_put] at hk hz
      split at hz
      · rename_i hr
        subst hr
        rw [if_pos rfl, h.sameKeyed] at hk
        obtain ⟨y, hy, hring, -⟩ := h.reader z hz
        exact reads_iff.2 ⟨hk, y, hy, hring.trans hq⟩
      · rename_i hr
        rw [if_neg hr] at hk
        exact reads_iff.2 ⟨hk, z, hz, hq⟩
    rw [hgrant r q hon] at hbefore
    exact absurd hbefore (by decide)
  · rw [Live.setTx_tx, look_put] at hk hz
    split at hz
    · rename_i hr
      subst hr
      rw [if_pos rfl, h.sameKeyed] at hk
      obtain ⟨y, hy, hring, hplace⟩ := h.reader z hz
      rw [← hring]
      exact hplace (hlag r y hk hy)
    · rename_i hr
      rw [if_neg hr] at hk
      exact hlag r z hk hz

theorem GoesOn.of_same_reader {l : Live} {p : Port} {t : TxPort}
    (hlawful : txLawful (look l.tx p) = true → txLawful t = true) (hkeyed : keyed t = keyed (look l.tx p))
    (hreader : t.reader = (look l.tx p).reader) : GoesOn l p t :=
  ⟨hlawful, hkeyed, fun z hz => ⟨z, hreader ▸ hz, rfl, id⟩⟩

theorem txLawful_keyUpDone {t : TxPort} (hs : t.state = .keying) (ht : txLawful t = true) :
    txLawful { t with state := .onAir, keyUp := none } = true := by
  obtain ⟨hreader, -, hhang, -⟩ := txLawful_iff.1 ht
  rw [hs] at hhang
  simp only [keyed, hs] at hreader
  exact txLawful_iff.2 ⟨hreader, rfl, hhang, .inl rfl⟩

theorem keyUpDone_sound (l : Live) (p : Port) (hl : Sound l) : Sound (keyUpDone l p) := by
  unfold keyUpDone
  dsimp only
  split
  · rename_i h
    simp only [Bool.and_eq_true, decide_eq_true_eq] at h
    exact sound_setTx (.of_same_reader (txLawful_keyUpDone h.1) (by simp [keyed, h.1]) rfl) hl
  · exact hl

theorem txLawful_hangs {t : TxPort} {n : Nat} (hs : t.state = .onAir) (ht : txLawful t = true) :
    txLawful { t with state := .hang, hang := some n, hangDue := false, sample := 0 } = true := by
  obtain ⟨hreader, hkeyUp, -, -⟩ := txLawful_iff.1 ht
  simp only [keyed, hs] at hreader
  rw [hs] at hkeyUp
  exact txLawful_iff.2 ⟨hreader, hkeyUp, rfl, .inl rfl⟩

theorem enterHangNow_sound (c : Settings) (l : Live) (p : Port) (hl : Sound l) : Sound (enterHangNow c l p) := by
  unfold enterHangNow
  dsimp only
  split
  · rename_i h
    simp only [Bool.and_eq_true, decide_eq_true_eq] at h
    exact sound_setTx (.of_same_reader (txLawful_hangs h.1) (by simp [keyed, h.1]) rfl) hl
  · exact hl

theorem txLawful_served {t : TxPort} {due : Bool} {s : Sample} (hs : keyed t = true) (ht : txLawful t = true) :
    txLawful { t with hangDue := due, sample := s } = true := by
  obtain ⟨hreader, hkeyUp, hhang, -⟩ := txLawful_iff.1 ht
  exact txLawful_iff.2 ⟨hreader, hkeyUp, hhang, .inl hs⟩

theorem txLawful_silent {t : TxPort} (ht : txLawful t = true) :
    txLawful { t with hangDue := false, sample := 0 } = true := by
  obtain ⟨hreader, hkeyUp, hhang, hstate⟩ := txLawful_iff.1 ht
  refine txLawful_iff.2 ⟨hreader, hkeyUp, hhang, hstate.imp_right fun h => ?_⟩
  rw [h]
  rfl

/-- One sample taken leaves a reader in its place: it had one to take. -/
theorem placeLawful_taken {ring : Ring} {r : Reader} (hs : hasSample ring r = true)
    (h : placeLawful ring.head r = true) : placeLawful ring.head { r with cursor := r.cursor + 1 } = true := by
  obtain ⟨hlag, hmark⟩ := placeLawful_iff.1 h
  simp only [hasSample, Bool.and_eq_true, decide_eq_true_eq] at hs
  obtain ⟨hcursor, hend⟩ := hs
  refine placeLawful_iff.2 ⟨?_, fun e he => ?_⟩
  · dsimp only
    bv_omega
  · have hm := hmark e he
    have hne : e ≠ r.cursor := fun heq => hend (by rw [← heq]; exact he)
    dsimp only
    bv_omega

theorem txLawful_reader {t : TxPort} (hk : keyed t = true) {y : Reader}
    {due : Bool} {s : Sample} (ht : txLawful t = true) :
    txLawful { t with reader := some y, hangDue := due, sample := s } = true := by
  obtain ⟨-, hkeyUp, hhang, -⟩ := txLawful_iff.1 ht
  exact txLawful_iff.2 ⟨hk, hkeyUp, hhang, .inl hk⟩

theorem sound_raise {l : Live} (src : Source) (e : Cond) (h : Sound l) : Sound (l.raise src e) :=
  (raise_run Settings.powerOn src e l).sound h

theorem raiseIf_sound {l : Live} (b : Bool) (src : Source) (e : Cond) (h : Sound l) : Sound (raiseIf b src e l) := by
  unfold raiseIf
  split
  · exact sound_raise src e h
  · exact h

theorem servePort_sound (c : Settings) (l : Live) (p : Port) (hl : Sound l) : Sound (servePort c l p) := by
  have hsilent : Sound (l.setTx p { look l.tx p with hangDue := false, sample := 0 }) :=
    sound_setTx (.of_same_reader txLawful_silent rfl rfl) hl
  unfold servePort
  dsimp only
  split
  · rename_i hair
    have hk : keyed (look l.tx p) = true := keyed_iff.2 (.inr (.inl hair))
    split
    · rename_i r hr
      split
      · rename_i hsample
        refine raiseIf_sound _ _ _ (sound_setTx ⟨txLawful_reader hk, rfl, fun z hz => ?_⟩ hl)
        obtain rfl := Option.some.inj hz
        exact ⟨r, hr, rfl, placeLawful_taken hsample⟩
      · exact sound_setTx (.of_same_reader (txLawful_served hk) rfl rfl) hl
    · exact hsilent
  · exact hsilent

/-! ### Appending -/

/-- A reader of the ring of `q` has room for one sample more (R64). -/
def Roomy (q : Patch) (l : Live) (p : Port) : Prop :=
  ∀ r, reads l p q = true → (look l.tx p).reader = some r → ((look l.rings q).head - r.cursor).toNat < 4096

/-- The reader of a ring that is full drops its oldest sample, and its end mark with it where it stands there (R64). -/
def dropped (r : Reader) : Reader :=
  { r with cursor := r.cursor + 1, endMark := if r.endMark = some r.cursor then some (r.cursor + 1) else r.endMark }

@[simp] theorem dropped_ring (r : Reader) : (dropped r).ring = r.ring := rfl

@[simp] theorem dropped_cursor (r : Reader) : (dropped r).cursor = r.cursor + 1 := rfl

theorem placeLawful_dropped {head : Count} {r : Reader} (h : placeLawful head r = true)
    (hfull : (head - r.cursor).toNat = 4096) : placeLawful head (dropped r) = true := by
  obtain ⟨-, hmark⟩ := placeLawful_iff.1 h
  refine placeLawful_iff.2 ⟨?_, fun e he => ?_⟩
  · rw [dropped_cursor]
    bv_omega
  · rw [dropped_cursor]
    unfold dropped at he
    dsimp only at he
    split at he
    · obtain rfl := Option.some.inj he
      bv_omega
    · rename_i hend
      have hm := hmark e he
      have hne : e ≠ r.cursor := fun heq => hend (by rw [← heq]; exact he)
      bv_omega

theorem lagOf_of_reads {l : Live} {p : Port} {r : Reader} (hk : keyed (look l.tx p) = true)
    (hr : (look l.tx p).reader = some r) : lagOf l p = ((look l.rings r.ring).head - r.cursor).toNat := by
  rw [lagOf, hr]
  exact if_pos hk

/-- What drop-oldest makes of a port: nothing where it has room; else its oldest sample goes, and LAGLOSS is raised
unless it stood at its end mark (R64). -/
theorem dropOldest_cases (q : Patch) (l : Live) (p : Port) :
    (dropOldest q l p = l ∧ ¬ (reads l p q = true ∧ lagOf l p = 4096)) ∨
      ∃ r, keyed (look l.tx p) = true ∧ (look l.tx p).reader = some r ∧ r.ring = q ∧
        ((look l.rings q).head - r.cursor).toNat = 4096 ∧
        (dropOldest q l p = l.setTx p { look l.tx p with reader := some (dropped r) } ∨
          dropOldest q l p =
            (l.setTx p { look l.tx p with reader := some (dropped r) }).raise (portSource p) .lagloss) := by
  unfold dropOldest
  dsimp only
  split
  · rename_i r hr
    split
    · rename_i h
      simp only [Bool.and_eq_true, decide_eq_true_eq] at h
      obtain ⟨hreads, hlag⟩ := h
      obtain ⟨hk, z, hz, rfl⟩ := reads_iff.1 hreads
      obtain rfl := Option.some.inj (hr.symm.trans hz)
      rw [lagOf_of_reads hk hr] at hlag
      refine .inr ⟨r, hk, hr, rfl, hlag, ?_⟩
      split
      · rename_i hend
        exact .inl (by simp only [dropped, if_pos hend])
      · rename_i hend
        exact .inr (by simp only [dropped, if_neg hend])
    · rename_i h
      simp only [Bool.and_eq_true, decide_eq_true_eq] at h
      exact .inl ⟨rfl, h⟩
  · rename_i hnone
    refine .inl ⟨rfl, fun ⟨hreads, _⟩ => ?_⟩
    obtain ⟨-, z, hz, -⟩ := reads_iff.1 hreads
    exact absurd (hnone.symm.trans hz) (by simp)

theorem dropOldest_rings (q : Patch) (l : Live) (p : Port) : (dropOldest q l p).rings = l.rings := by
  rcases dropOldest_cases q l p with ⟨h, -⟩ | ⟨r, -, -, -, -, h | h⟩ <;> rw [h] <;> rfl

theorem dropOldest_tx_ne (q : Patch) (l : Live) {p x : Port} (hx : x ≠ p) :
    look (dropOldest q l p).tx x = look l.tx x := by
  rcases dropOldest_cases q l p with ⟨h, -⟩ | ⟨r, -, -, -, -, h | h⟩ <;> rw [h]
  · exact look_put_ne _ _ _ _ hx
  · exact look_put_ne _ _ _ _ hx

theorem sound_dropped {q : Patch} {l : Live} {p : Port} {r : Reader} (hk : keyed (look l.tx p) = true)
    (hr : (look l.tx p).reader = some r) (hq : r.ring = q) (hfull : ((look l.rings q).head - r.cursor).toNat = 4096)
    (hl : Sound l) : Sound (l.setTx p { look l.tx p with reader := some (dropped r) }) := by
  subst hq
  refine sound_setTx ⟨fun ht => ?_, rfl, fun z hz => ?_⟩ hl
  · obtain ⟨-, hkeyUp, hhang, -⟩ := txLawful_iff.1 ht
    exact txLawful_iff.2 ⟨hk, hkeyUp, hhang, .inl hk⟩
  · obtain rfl := Option.some.inj hz
    exact ⟨r, hr, rfl, fun h => placeLawful_dropped h hfull⟩

theorem dropOldest_sound (q : Patch) (l : Live) (p : Port) (hl : Sound l) : Sound (dropOldest q l p) := by
  rcases dropOldest_cases q l p with ⟨h, -⟩ | ⟨r, hk, hr, hq, hfull, h | h⟩ <;> rw [h]
  · exact hl
  · exact sound_dropped hk hr hq hfull hl
  · exact sound_raise _ _ (sound_dropped hk hr hq hfull hl)

theorem roomy_congr {q : Patch} {l l' : Live} {x : Port} (htx : look l'.tx x = look l.tx x) (hrings : l'.rings = l.rings)
    (h : Roomy q l x) : Roomy q l' x := by
  intro r hreads hr
  rw [reads, htx] at hreads
  rw [htx] at hr
  rw [hrings]
  exact h r hreads hr

theorem roomy_dropOldest_self {q : Patch} {l : Live} {p : Port} (hl : Sound l) : Roomy q (dropOldest q l p) p := by
  obtain ⟨-, -, -, hlag⟩ := hl
  rcases dropOldest_cases q l p with ⟨h, hroom⟩ | ⟨r, hk, hr, hq, hfull, h⟩
  · rw [h]
    intro z hreads hz
    obtain ⟨hk, y, hy, rfl⟩ := reads_iff.1 hreads
    obtain rfl := Option.some.inj (hy.symm.trans hz)
    have hle := (placeLawful_iff.1 (hlag p y hk hy)).1
    rw [lagOf_of_reads hk hy] at hroom
    have hne : ((look l.rings y.ring).head - y.cursor).toNat ≠ 4096 := fun he => hroom ⟨hreads, he⟩
    omega
  · have htx : look (dropOldest q l p).tx p = { look l.tx p with reader := some (dropped r) } := by
      rcases h with h | h <;> rw [h] <;> exact look_put_same _ _ _
    intro z _ hz
    rw [htx] at hz
    obtain rfl := Option.some.inj hz
    rw [dropOldest_rings, dropped_cursor]
    bv_omega

theorem roomy_dropOldest {q : Patch} {l : Live} {p x : Port} (hl : Sound l) (h : Roomy q l x) :
    Roomy q (dropOldest q l p) x := by
  by_cases hx : x = p
  · subst hx
    exact roomy_dropOldest_self hl
  · exact roomy_congr (dropOldest_tx_ne q l hx) (dropOldest_rings q l p) h

/-- Once every port has dropped its oldest sample where it had to, every reader of the ring has room. -/
theorem sound_roomy_foldl (q : Patch) (ps : List Port) (l : Live) (hl : Sound l) :
    Sound (ps.foldl (dropOldest q) l) ∧ ∀ x, Roomy q l x ∨ x ∈ ps → Roomy q (ps.foldl (dropOldest q) l) x := by
  induction ps generalizing l with
  | nil => exact ⟨hl, fun x hx => hx.resolve_right List.not_mem_nil⟩
  | cons p ps ih =>
    obtain ⟨hsound, hroomy⟩ := ih _ (dropOldest_sound q l p hl)
    refine ⟨hsound, fun x hx => hroomy x ?_⟩
    rcases hx with hx | hx
    · exact .inl (roomy_dropOldest hl hx)
    · rcases List.mem_cons.1 hx with rfl | hx
      · exact .inl (roomy_dropOldest_self hl)
      · exact .inr hx

theorem placeLawful_pushed {head : Count} {r : Reader} (h : placeLawful head r = true)
    (hroom : (head - r.cursor).toNat < 4096) : placeLawful (head + 1) r = true := by
  obtain ⟨-, hmark⟩ := placeLawful_iff.1 h
  have hlag : (head + 1 - r.cursor).toNat = (head - r.cursor).toNat + 1 := by bv_omega
  exact placeLawful_iff.2 ⟨by omega, fun e he => (hmark e he).trans (by omega)⟩

/-- A sample appended to a ring whose readers have room. -/
theorem sound_pushed {q : Patch} {l : Live} (s : Sample) (hroomy : ∀ p, Roomy q l p) (hl : Sound l) :
    Sound (l.setRing q (pushSample (look l.rings q) s)) := by
  obtain ⟨hport, hfloor, hgrant, hlag⟩ := hl
  refine ⟨hport, hfloor, hgrant, fun p r hk hr => ?_⟩
  have hplace := hlag p r hk hr
  rw [Live.setRing_rings, look_put]
  split
  · rename_i hq
    rw [hq] at hplace
    exact placeLawful_pushed hplace (hroomy p r (reads_iff.2 ⟨hk, r, hr, hq⟩) hr)
  · exact hplace

theorem appendRing_sound (c : Settings) (received : Vector Sample 18) (alert : Sample × Bool) (l : Live) (q : Patch)
    (hl : Sound l) : Sound (appendRing c received alert l q) := by
  unfold appendRing
  dsimp only
  split
  · obtain ⟨hsound, hroomy⟩ := sound_roomy_foldl q allPorts l hl
    exact raiseIf_sound _ _ _ (sound_pushed _ (fun p => hroomy p (.inr (mem_allPorts p))) hsound)
  · exact hl

/-- The ring work of a frame keeps ports, floors and readers lawful. -/
theorem ringWork_sound (c : Settings) (received : Vector Sample 18) (l : Live) (hl : Sound l) :
    Sound (ringWork c received l) := by
  have hkeyUps := foldl_keeps Sound keyUpDone (fun l p h => keyUpDone_sound l p h) allPorts l hl
  have hserved := foldl_keeps Sound (servePort c) (fun l p h => servePort_sound c l p h) allPorts _ hkeyUps
  have happended := foldl_keeps Sound
    (appendRing c received (alertSample c (allPorts.foldl (servePort c) (allPorts.foldl keyUpDone l)) received))
    (fun l q h => appendRing_sound c received _ l q h) allPatches _ hserved
  exact (recordRaised_run c c _).sound ((setGen_run c _ _).sound happended)

/-! ### The arrival of a frame -/

theorem isSome_countDown (t : Option Nat) : (countDown t).isSome = t.isSome := by
  cases t with
  | none => rfl
  | some n => cases n <;> rfl

theorem txLawful_tickTx (hdi : Vector Byte 45) (p : Port) {t : TxPort} (ht : txLawful t = true) :
    txLawful (tickTx hdi p t) = true := by
  obtain ⟨hreader, hkeyUp, hhang, hrest⟩ := txLawful_iff.1 ht
  refine txLawful_iff.2 ⟨hreader, ?_, ?_, hrest.imp_right fun h => ?_⟩
  · rw [tickTx, isSome_countDown]
    exact hkeyUp
  · rw [tickTx, isSome_countDown]
    exact hhang
  · rw [h]
    unfold tickTx
    dsimp only
    split <;> rfl

theorem rxLawful_tickRx (c : Settings) (hdi : Vector Byte 45) (p : Port) {x : RxPort} (hx : rxLawful x = true) :
    rxLawful (tickRx c hdi p x) = true := by
  have htalk : (tickRx c hdi p x).talk.isNone = x.talk.isNone := by
    rw [← Option.not_isSome, ← Option.not_isSome]
    exact congrArg _ (isSome_countDown x.talk)
  rw [rxLawful, htalk]
  exact hx

theorem tickLive_saves (c : Settings) (hdi : Vector Byte 45) (l : Live) (q : Patch) :
    (look (tickLive c hdi l).ovr q).save1 = (look l.ovr q).save1 ∧
      (look (tickLive c hdi l).ovr q).save2 = (look l.ovr q).save2 := by
  simp only [tickLive, look_mapTable, and_self]

theorem tickLive_sound (c : Settings) (hdi : Vector Byte 45) (l : Live) (hl : Sound l) : Sound (tickLive c hdi l) := by
  obtain ⟨htx, hrx, -, -⟩ := tickLive_entries c hdi l
  obtain ⟨hfla, hrings, -⟩ := tickLive_rest c hdi l
  have hsaves := tickLive_saves c hdi l
  generalize tickLive c hdi l = l' at *
  obtain ⟨hport, hfloor, hgrant, hlag⟩ := hl
  have hctx : ∀ q, ctxOf l' q = ctxOf l q := fun q => by rw [ctxOf, hfla, ctxOf]
  refine ⟨fun p => ?_, fun q => ?_, fun p q hon => ?_, fun p r hk hr => ?_⟩
  · rw [htx, hrx]
    exact ⟨txLawful_tickTx hdi p (hport p).1, rxLawful_tickRx c hdi p (hport p).2⟩
  · rw [hctx, (hsaves q).1, (hsaves q).2]
    exact hfloor q
  · rw [onFloor, hctx] at hon
    rw [reads, htx]
    exact hgrant p q hon
  · rw [htx] at hk hr
    rw [hrings]
    exact hlag p r hk hr

/-! ### Every move and every step -/

theorem sound_fresh (a : Bank) (mode : Patch → Mode) : Sound (Live.fresh a mode) :=
  ⟨portLaw_fresh a mode, floorLaw_fresh a mode, grantLaw_fresh a mode, lagLaw_fresh a mode⟩

theorem run_withRestart (c : Settings) (l : Live) : Run c l l.withRestart := run_of_same rfl rfl rfl rfl rfl

/-- What the work of a frame does to the live state before an event is closed. -/
inductive FrameStep (c : Settings) : Live → Live → Prop
  | none (l : Live) : FrameStep c l l
  | enterHang (l : Live) (p : Port) : FrameStep c l (enterHangNow c l p)
  | ringWork (l : Live) (received : Vector Sample 18) : FrameStep c l (ringWork c received l)
  | tick (l : Live) (hdi : Vector Byte 45) : FrameStep c l (tickLive c hdi l)
  | keyUpDone (l : Live) (p : Port) : FrameStep c l (keyUpDone l p)

theorem FrameStep.sound {c : Settings} {l l' : Live} (h : FrameStep c l l') (hl : Sound l) : Sound l' := by
  cases h with
  | none => exact hl
  | enterHang p => exact enterHangNow_sound c l p hl
  | ringWork received => exact ringWork_sound c received l hl
  | tick hdi => exact tickLive_sound c hdi l hl
  | keyUpDone p => exact keyUpDone_sound l p hl

/-- What a move comes to: the work of a frame, an event or an order, each closed by a run; or a reset. -/
inductive Effect (c c' : Settings) (l : Live) : Live → Prop
  | work {m l' : Live} (hc : c' = c) (hframe : FrameStep c l m) (hrun : Run c m l') : Effect c c' l l'
  | order {r : OrderResult} (hr : OrderOutcome c l r) (hc : c' = r.cfg) : Effect c c' l r.live
  | reset {l' : Live} (a : Bank) (mode : Patch → Mode) (hrun : Run c' (Live.fresh a mode) l') : Effect c c' l l'

theorem Effect.of_event {c : Settings} {l m : Live} (h : Run c l m) : Effect c c l (closeEvent c m) :=
  .work rfl (.none l) (h.trans (closeEvent_run c m))

theorem Effect.of_run {c : Settings} {l m : Live} (h : Run c l m) : Effect c c l m := .work rfl (.none l) h

theorem Effect.of_frame {c : Settings} {l m : Live} (h : FrameStep c l m) : Effect c c l m := .work rfl h .refl

theorem emgFall_run (c : Settings) (p : Port) (l : Live) : Run c l (emgFall p c l) :=
  setEmg_run c p (Debounce.settled false) l

theorem putGraceFirst_run (c : Settings) (l : Live) : Run c l (putGraceFirst l) := by
  unfold putGraceFirst
  split
  · exact run_of_same rfl rfl rfl rfl rfl
  · exact .refl

theorem LiveMove.effect {a b : Settings × Live} (hm : LiveMove a b) : Effect a.1 b.1 a.2 b.2 := by
  cases hm with
  | enterHang c l p =>
    dsimp only
    exact .of_frame (.enterHang l p)
  | cadenceEnd c l _ =>
    dsimp only
    exact .of_run (m := { l with gen := endCadenceCount c.cadence l.gen })
      (setGen_run c l (endCadenceCount c.cadence l.gen))
  | ringWork c l received =>
    dsimp only
    exact .of_frame (.ringWork l received)
  | tick c l hdi =>
    dsimp only
    exact .of_frame (.tick l hdi)
  | corRise c l p =>
    dsimp only
    exact .of_event (corRise_run c p l)
  | corFall c l p =>
    dsimp only
    exact .of_event (corFall_run c p l)
  | emergencyRise c l p =>
    dsimp only
    exact .of_event (emergencyRise_run c p l)
  | emgFall c l p =>
    dsimp only
    exact .of_event (emgFall_run c p l)
  | talkTimeUp c l p =>
    dsimp only
    exact .of_event (talkTimeUp_run c p l)
  | keyUpDone c l p =>
    dsimp only
    exact .work rfl (.keyUpDone l p) (closeEvent_run c _)
  | hangUp c l p =>
    dsimp only
    exact .of_event (Run.of_keyRun (hangUp_run c p l))
  | confirmUp c l p =>
    dsimp only
    exact .of_event (confirmUp_run c p l)
  | alertTimer c l q _ =>
    dsimp only
    exact .of_event (endAlert_run c l q)
  | grace c l _ =>
    dsimp only
    exact .of_event (force_run c l.switch.involved l)
  | graceFirst c l =>
    dsimp only
    exact .of_run (putGraceFirst_run c l)
  | order c l r hr =>
    dsimp only
    exact .order hr rfl
  | report c l src rest _ =>
    dsimp only
    exact .of_run (m := reportTaken src rest l) (run_of_same rfl rfl rfl rfl rfl)
  | resetOrder c l =>
    dsimp only
    exact .reset l.active _ (run_withRestart c _)
  | powerOn c l =>
    dsimp only
    exact .reset 0 _ .refl
  | rst c l =>
    dsimp only
    exact .reset 0 _ .refl
  | restart c l =>
    dsimp only
    exact .of_run (run_withRestart c l)

theorem Effect.sound {c c' : Settings} {l l' : Live} (h : Effect c c' l l') (hl : Sound l) : Sound l' := by
  cases h with
  | work hc hframe hrun => exact hrun.sound (hframe.sound hl)
  | order hr hc => exact (OrderOutcome.run hr).sound hl
  | reset a mode hrun => exact hrun.sound (sound_fresh a mode)

theorem liveMove_keeps_sound {a b : Settings × Live} (hm : LiveMove a b) (ha : Sound a.2) : Sound b.2 :=
  Effect.sound (LiveMove.effect hm) ha

theorem liveRun_keeps_sound {a b : Settings × Live} (h : LiveRun a b) (ha : Sound a.2) : Sound b.2 := by
  induction h with
  | refl => exact ha
  | tail _ hm ih => exact liveMove_keeps_sound hm ih

theorem exec_keeps_sound {i : Instr} {s t : State} (h : Sound s.live) (hs : exec i s = .next t) : Sound t.live := by
  have hrun : LiveRun (s.cfg, s.live) (t.cfg, t.live) := exec_run i s t hs
  have hend : Sound (t.cfg, t.live).2 := liveRun_keeps_sound (a := (s.cfg, s.live)) (b := (t.cfg, t.live)) hrun h
  exact hend

theorem step_keeps_sound {s t : State} (h : Sound s.live) (hs : step s = .next t) : Sound t.live := by
  unfold step at hs
  split at hs
  · injection hs with e
    exact e ▸ h
  · refine exec_keeps_sound ?_ hs
    exact h

/-- Settles O58: each move of a step keeps ports, floors and readers lawful. -/
theorem stepsKeepPortsFloorsAndReaders : Obligations.StepsKeepPortsFloorsAndReaders :=
  fun _ _ hport hfloor hgrant hlag hs => step_keeps_sound ⟨hport, hfloor, hgrant, hlag⟩ hs

end Sys2Proof.SoundSteps

/-! SUPPORT. Which changes of the live state keep the laws of floors and claims and touch nothing else. -/

namespace Sys2Proof.ClaimSteps

open Sys2Proof.Machine Sys2Proof.Safety Sys2Proof.Claims Sys2Proof.PlanLaws Sys2Proof.ResetOrders Sys2Proof.Signalling
  Sys2Proof.Keying Sys2Proof.LiveSteps Sys2Proof.LiveRuns

/-! ### Members -/

theorem talkMember_congr {c : Settings} {l l' : Live} (h : l'.active = l.active) (q : Patch) (p : Port) :
    talkMember c l' q p = talkMember c l q p := by
  rw [talkMember, memberIn, activeRecord, h, talkMember, memberIn, activeRecord]

theorem isSome_memberIn {c : Settings} {l : Live} {q : Patch} {p : Port} (h : (memberIn c l q p).isSome = true) :
    (activeRecord c l q).valid = true ∧ stands (activeRecord c l q) p = true := by
  unfold memberIn at h
  split at h
  · rename_i hv
    exact ⟨hv, h⟩
  · exact absurd h (by simp)

/-- A port is a member of one valid ACTIVE patch at most (R4). -/
theorem patch_unique {c : Settings} (hplan : PlanLaw c) {l : Live} {q r : Patch} {p : Port}
    (hq : (memberIn c l q p).isSome = true) (hr : (memberIn c l r p).isSome = true) : q = r := by
  obtain ⟨vq, sq⟩ := isSome_memberIn hq
  obtain ⟨vr, sr⟩ := isSome_memberIn hr
  exact hplan.2 l.active p q r vq vr sq sr

theorem isSome_of_talkMember {c : Settings} {l : Live} {q : Patch} {p : Port} (h : talkMember c l q p = true) :
    (memberIn c l q p).isSome = true := by
  unfold talkMember at h
  cases hm : memberIn c l q p with
  | none => rw [hm] at h; exact absurd h (by simp)
  | some m => rfl

theorem talkMember_unique {c : Settings} (hplan : PlanLaw c) {l : Live} {q r : Patch} {p : Port}
    (hq : talkMember c l q p = true) (hr : talkMember c l r p = true) : q = r :=
  patch_unique hplan (isSome_of_talkMember hq) (isSome_of_talkMember hr)

theorem isSome_of_listenMember {c : Settings} {l : Live} {q : Patch} {p : Port} (h : listenMember c l q p = true) :
    (memberIn c l q p).isSome = true := by
  unfold listenMember at h
  cases hm : memberIn c l q p with
  | none => rw [hm] at h; exact absurd h (by simp)
  | some m => rfl

/-- A radio port is entitled to no ring but that of a patch it is a member of (R67). -/
theorem memberIn_of_entitled {c : Settings} {l : Live} {p : Port} {q : Patch} (hp : isConsole p = false)
    (h : entitled c l p q = true) : (memberIn c l q p).isSome = true := by
  unfold entitled at h
  split at h
  · simp only [Bool.and_eq_true] at h
    exact h.1
  · simp only [hp, Bool.false_and, Bool.false_eq_true, if_false, Bool.and_eq_true] at h
    exact isSome_of_listenMember h.2

theorem portPatch_spec {c : Settings} {l : Live} {p : Port} {q : Patch} (h : portPatch c l p = some q) :
    (memberIn c l q p).isSome = true := List.find?_some (p := fun q => (memberIn c l q p).isSome) h

/-- The COR of a console port is never ignored: it is full duplex with no RXLO (R23). -/
theorem not_ignores_of_console {c : Settings} (hset : SettingsLaw c) {p : Port} (hp : isConsole p = true) :
    ignoresWhenKeyed (look c.ports p) = false := by
  have hrange := hset.2.1 p
  simp only [portInRange, hp, Bool.not_true, Bool.false_or, Bool.and_eq_true, decide_eq_true_eq, Bool.not_eq_true'] at hrange
  obtain ⟨-, ⟨⟨⟨⟨hduplex, hrxlo⟩, -⟩, -⟩, -⟩⟩ := hrange
  simp [ignoresWhenKeyed, hduplex, hrxlo]

/-! ### Claims, some set aside -/

/-- The law of claims with some ports set aside in some patches: every other claimant is an RX_ACTIVE TALK member, every
other port on a floor a claimant (R41, R43). -/
def ClaimsBut (X : Patch → Port → Prop) (c : Settings) (l : Live) : Prop :=
  (∀ q, ∀ p ∈ claimantsOf l q, X q p ∨ (talkMember c l q p = true ∧ rxActive l p = true)) ∧
    ∀ q, ∀ p ∈ (ctxOf l q).floor, X q p ∨ p ∈ claimantsOf l q

/-- Nobody is set aside. -/
def nobody (_ : Patch) (_ : Port) : Prop := False

theorem claimLaw_iff {c : Settings} {l : Live} : ClaimLaw c l ↔ ClaimsBut nobody c l := by
  simp only [ClaimLaw, ClaimsBut, nobody, false_or]

theorem ClaimsBut.mono {X Y : Patch → Port → Prop} {c : Settings} {l : Live} (h : ClaimsBut X c l)
    (hxy : ∀ q p, X q p → Y q p) : ClaimsBut Y c l :=
  ⟨fun q p hp => (h.1 q p hp).imp_left (hxy q p), fun q p hp => (h.2 q p hp).imp_left (hxy q p)⟩

/-- Who was set aside but stands nowhere need not be. -/
theorem ClaimsBut.drop {X Y : Patch → Port → Prop} {c : Settings} {l : Live} (h : ClaimsBut X c l)
    (hclaims : ∀ q, ∀ p ∈ claimantsOf l q, X q p → Y q p) (hfloor : ∀ q, ∀ p ∈ (ctxOf l q).floor, X q p → Y q p) :
    ClaimsBut Y c l :=
  ⟨fun q p hp => (h.1 q p hp).imp_left (hclaims q p hp), fun q p hp => (h.2 q p hp).imp_left (hfloor q p hp)⟩

/-- Floors and claims are read from the floor states, the receive machines and the active bank. -/
theorem ClaimsBut.congr {X : Patch → Port → Prop} {c : Settings} {l l' : Live} (h : ClaimsBut X c l)
    (hfla : ∀ q, claimantsOf l' q = claimantsOf l q ∧ (ctxOf l' q).floor = (ctxOf l q).floor)
    (hrx : ∀ p, (look l'.rx p).rx = (look l.rx p).rx) (hactive : l'.active = l.active) : ClaimsBut X c l' := by
  refine ⟨fun q p hp => ?_, fun q p hp => ?_⟩
  · rw [(hfla q).1] at hp
    rw [talkMember_congr hactive, rxActive, hrx]
    exact h.1 q p hp
  · rw [(hfla q).2] at hp
    rw [(hfla q).1]
    exact h.2 q p hp

section

variable {c : Settings} (hlaw : Lawful c) {X : Patch → Port → Prop} {l : Live}
include hlaw

/-- A port that releases its claim as it keys is on no floor but those where it is set aside (R34, R49). -/
theorem not_onFloor_of_releases {p : Port} {q : Patch} (hfloor : FloorLaw l) (h : ClaimsBut X c l)
    (hring : entitled c l p q = true ∨ MayGuest l p q) (hrel : releasesAsKeyed c l p = true) {r : Patch}
    (hp : p ∈ (ctxOf l r).floor) : X r p := by
  rw [releasesAsKeyed, Bool.and_eq_true] at hrel
  have hradio : isConsole p = false := by
    rw [← Bool.not_eq_true]
    intro hc
    rw [not_ignores_of_console hlaw.2 hc] at hrel
    exact absurd hrel.1 (by decide)
  rcases hring with he | ⟨hc, -, -⟩
  · rcases h.2 r p hp with hx | hclaims
    · exact hx
    · rcases h.1 r p hclaims with hx | ⟨htalk, -⟩
      · exact hx
      · obtain rfl := patch_unique hlaw.1 (memberIn_of_entitled hradio he) (isSome_of_talkMember htalk)
        have hoff := not_onFloor_of_entitled (hfloor q).1 he
        rw [onFloor, List.contains_eq_mem, decide_eq_false_iff_not] at hoff
        exact absurd hp hoff
  · rw [hradio] at hc
    exact absurd hc (by decide)

omit hlaw in
theorem rx_key_of_not_releases {p x : Port} {q : Patch} {ms : Nat} (hrel : releasesAsKeyed c l p = false) :
    (look (key c p q ms l).rx x).rx = (look l.rx x).rx := by
  rw [key_rx, look_put]
  split
  · rename_i hx
    subst hx
    rw [releasesAsKeyed, Bool.and_eq_false_iff] at hrel
    rcases hrel with hi | ha
    · rw [rxAsKeyed_of_heard hi]
    · rw [rxActive, decide_eq_false_iff_not] at ha
      simp only [rxAsKeyed, if_neg ha]
      split <;> rfl
  · rfl

omit hlaw in
theorem ClaimsBut.dropped {p : Port} {l' : Live} (h : ClaimsBut X c l)
    (hclaims : ∀ q, claimantsOf l' q = dropPort p (claimantsOf l q)) (hctx : ∀ q, ctxOf l' q = ctxOf l q)
    (hrx : ∀ x, x ≠ p → (look l'.rx x).rx = (look l.rx x).rx) (hactive : l'.active = l.active)
    (hfloor : ∀ q, p ∈ (ctxOf l q).floor → X q p) : ClaimsBut X c l' := by
  refine ⟨fun q x hx => ?_, fun q x hx => ?_⟩
  · rw [hclaims, mem_dropPort] at hx
    rw [talkMember_congr hactive, rxActive, hrx x hx.2]
    exact h.1 q x hx.1
  · rw [hctx] at hx
    rw [hclaims, mem_dropPort]
    by_cases he : x = p
    · exact .inl (he ▸ hfloor q (he ▸ hx))
    · exact (h.2 q x hx).imp_right fun hc => ⟨hc, he⟩

/-- A step of a hand-on keeps the law of claims. -/
theorem keyStep_claims {l' : Live} (hs : KeyStep c l l') (hfloor : FloorLaw l) (h : ClaimsBut X c l) :
    ClaimsBut X c l' := by
  have hactive := (beyondFloors_fields (Tuned.of_step hs).rest).1
  cases hs with
  | key p q ms hdormant hring =>
    cases hrel : releasesAsKeyed c l p with
    | true =>
      refine h.dropped (p := p) (fun r => by rw [claimantsOf_key, hrel, if_pos rfl]) (fun r => ctxOf_key ..) (fun x hx => ?_)
        hactive fun r hp => not_onFloor_of_releases hlaw hfloor h hring hrel hp
      rw [key_rx, look_put_ne _ _ _ _ hx]
    | false =>
      refine h.congr (fun r => ⟨?_, by rw [ctxOf_key]⟩) (fun x => rx_key_of_not_releases hrel) hactive
      rw [claimantsOf_key, hrel, if_neg (by decide)]
  | leave p target ht =>
    refine h.congr (fun r => by simp only [claimantsOf, ctxOf, leaveKeyed_fla, and_self]) (fun x => ?_) hactive
    obtain ⟨d, hd⟩ := rx_leaveKeyed c p x target l
    rw [hd]
  | follow p hkeyed =>
    cases hr : (look l.tx p).reader with
    | none => rwa [syncReader_of_none hr]
    | some z =>
      rw [syncReader_of_reader hr]
      exact h.congr (fun _ => ⟨rfl, rfl⟩) (fun _ => rfl) rfl
  | floor q floor hplace =>
    refine ⟨fun r x hx => ?_, fun r x hx => ?_⟩
    · rw [claimantsOf_setCtx] at hx
      exact h.1 r x hx
    · rw [claimantsOf_setCtx]
      rw [ctxOf_setCtx] at hx
      split at hx
      · rename_i hr
        subst hr
        exact (hplace.claims x hx).elim .inr (h.2 r x)
      · exact h.2 r x hx

end

/-! ### What the other blocks read -/

/-- The same overrides, lamps, guests, switch, bank, freezing flags and sources. -/
structure SameControl (l l' : Live) : Prop where
  active : l'.active = l.active
  ovr : l'.ovr = l.ovr
  lamps : l'.lamps = l.lamps
  holder : l'.guestHolder = l.guestHolder
  queue : l'.guestQueue = l.guestQueue
  switch : l'.switch = l.switch
  freezing : ∀ q, (look l'.fla q).freezing = (look l.fla q).freezing
  source : ∀ q, (ctxOf l' q).source = (ctxOf l q).source

theorem SameControl.refl (l : Live) : SameControl l l := ⟨rfl, rfl, rfl, rfl, rfl, rfl, fun _ => rfl, fun _ => rfl⟩

theorem SameControl.trans {a b d : Live} (h : SameControl a b) (k : SameControl b d) : SameControl a d :=
  ⟨k.active.trans h.active, k.ovr.trans h.ovr, k.lamps.trans h.lamps, k.holder.trans h.holder, k.queue.trans h.queue,
    k.switch.trans h.switch, fun q => (k.freezing q).trans (h.freezing q), fun q => (k.source q).trans (h.source q)⟩

theorem SameControl.of_keyRun {c : Settings} {l l' : Live} (h : KeyRun c l l') : SameControl l l' := by
  have ht := h.tuned
  obtain ⟨hactive, -, hovr, hlamps, hholder, hqueue, -, hswitch, -⟩ := beyondFloors_fields ht.rest
  exact ⟨hactive, hovr, hlamps, hholder, hqueue, hswitch, fun q => beyondFloors_freezing ht.rest q,
    fun q => by rw [ht.ctx q]⟩

theorem SameControl.of_fla {l l' : Live} (hactive : l'.active = l.active) (hovr : l'.ovr = l.ovr)
    (hlamps : l'.lamps = l.lamps) (hholder : l'.guestHolder = l.guestHolder) (hqueue : l'.guestQueue = l.guestQueue)
    (hswitch : l'.switch = l.switch) (hfla : l'.fla = l.fla) : SameControl l l' :=
  ⟨hactive, hovr, hlamps, hholder, hqueue, hswitch, fun q => by rw [hfla], fun q => by rw [ctxOf, hfla, ctxOf]⟩

/-! ### Calm operations -/

/-- An operation that leaves the other blocks alone and keeps the laws of floors and claims, whoever is set aside. -/
structure Calm (c : Settings) (l l' : Live) : Prop where
  control : SameControl l l'
  floor : FloorLaw l → FloorLaw l'
  claims : ∀ X, FloorLaw l → ClaimsBut X c l → ClaimsBut X c l'

theorem Calm.refl (c : Settings) (l : Live) : Calm c l l := ⟨.refl l, id, fun _ _ => id⟩

theorem Calm.trans {c : Settings} {a b d : Live} (h : Calm c a b) (k : Calm c b d) : Calm c a d :=
  ⟨h.control.trans k.control, fun hf => k.floor (h.floor hf),
    fun X hf hc => k.claims X (h.floor hf) (h.claims X hf hc)⟩

theorem Calm.foldl {α : Type} {c : Settings} {f : Live → α → Live} (xs : List α) (hf : ∀ l, ∀ x ∈ xs, Calm c l (f l x))
    (l : Live) : Calm c l (xs.foldl f l) :=
  foldl_keeps_mem (fun l' => Calm c l l') f xs (fun _ x hx h => h.trans (hf _ x hx)) l (.refl c l)

theorem Calm.of_keyRun {c : Settings} (hlaw : Lawful c) {l l' : Live} (h : KeyRun c l l') : Calm c l l' := by
  refine ⟨.of_keyRun h, (Run.of_keyRun h).floorLaw, fun X hf hc => ?_⟩
  exact (h.keeps (P := fun m => FloorLaw m ∧ ClaimsBut X c m)
    (fun _ _ hs ⟨hf, hc⟩ => ⟨hs.floorLaw hf, keyStep_claims hlaw hs hf hc⟩) ⟨hf, hc⟩).2

/-- An operation that leaves floors, claims, receive states and the other blocks alone. -/
theorem Calm.of_same {c : Settings} {l l' : Live} (h : SameControl l l') (hovr : l'.fla = l.fla)
    (hrx : ∀ p, (look l'.rx p).rx = (look l.rx p).rx) : Calm c l l' :=
  ⟨h, fun hf => floorLaw_congr hf (fun q => by rw [ctxOf, hovr, ctxOf]) h.ovr,
    fun _ _ hc => hc.congr (fun q => by simp only [claimantsOf, ctxOf, hovr, and_self]) hrx h.active⟩

/-- A receive machine that keeps its receive state. -/
theorem setRx_calm (c : Settings) (l : Live) (p : Port) {x : RxPort} (hx : x.rx = (look l.rx p).rx) :
    Calm c l (l.setRx p x) := by
  refine .of_same (.of_fla rfl rfl rfl rfl rfl rfl rfl) rfl fun r => ?_
  rw [Live.setRx_rx, look_put]
  split
  · rename_i hr
    rw [hx, hr]
  · rfl

theorem setRx_control (l : Live) (p : Port) (x : RxPort) : SameControl l (l.setRx p x) :=
  .of_fla rfl rfl rfl rfl rfl rfl rfl

/-- A receive machine that enters RX_ACTIVE, or leaves it while it is a claimant nowhere. -/
theorem setRx_calm_of {c : Settings} {l : Live} {p : Port} {x : RxPort} (hx : x.rx = .active ∨ rxActive l p = false) :
    Calm c l (l.setRx p x) := by
  refine ⟨setRx_control l p x, id, fun X _ h => ⟨fun q r hr => ?_, h.2⟩⟩
  refine (h.1 q r hr).imp_right fun ⟨htalk, ha⟩ => ⟨htalk, ?_⟩
  rw [rxActive, Live.setRx_rx, look_put]
  split
  · rename_i he
    subst he
    exact decide_eq_true (hx.resolve_right (by rw [ha]; decide))
  · exact ha

theorem setClaimants_control (l : Live) (q : Patch) (ps : List Port) : SameControl l (l.setClaimants q ps) := by
  refine ⟨rfl, rfl, rfl, rfl, rfl, rfl, fun r => ?_, fun r => by rw [ctxOf_setClaimants]⟩
  rw [Live.setClaimants_fla, look_put]
  split
  · rename_i hr
    rw [hr]
  · rfl

/-- Claimants of a patch replaced: the new ones are RX_ACTIVE TALK members, and nobody who claimed is left out but who is
set aside. -/
theorem setClaimants_claims {X : Patch → Port → Prop} {c : Settings} {l : Live} {q : Patch} {ps : List Port}
    (hnew : ∀ p ∈ ps, X q p ∨ (talkMember c l q p = true ∧ rxActive l p = true))
    (hold : ∀ p ∈ claimantsOf l q, X q p ∨ p ∈ ps) (h : ClaimsBut X c l) : ClaimsBut X c (l.setClaimants q ps) := by
  refine ⟨fun r p hp => ?_, fun r p hp => ?_⟩
  · rw [claimantsOf_setClaimants] at hp
    split at hp
    · rename_i hr
      exact hr ▸ hnew p hp
    · exact h.1 r p hp
  · rw [ctxOf_setClaimants] at hp
    rw [claimantsOf_setClaimants]
    split
    · rename_i hr
      subst hr
      exact (h.2 r p hp).elim .inl (hold p)
    · exact h.2 r p hp

theorem floorLaw_setClaimants {l : Live} (q : Patch) (ps : List Port) (h : FloorLaw l) : FloorLaw (l.setClaimants q ps) :=
  floorLaw_congr h (fun r => ctxOf_setClaimants l q r ps) rfl

section

variable {c : Settings} (hlaw : Lawful c)
include hlaw

theorem installClaimed_calm {l : Live} {q : Patch} (p : Port) (hp : p ∈ claimantsOf l q ∨ p ∈ (ctxOf l q).floor) :
    Calm c l (installFloor c q (claimedFloor c l q (ctxOf l q).floor p) l) := by
  refine .of_keyRun hlaw (installFloor_run c q _ l (contextLawful_claimedFloor p) fun x hx => ?_)
  rcases mem_of_mem_claimedFloor hx with rfl | hx
  · exact hp
  · exact hx

theorem claim_calm {p : Port} {l : Live} (ha : rxActive l p = true) : Calm c l (claim c p l) := by
  unfold claim
  split
  · rename_i q hq
    split
    · rename_i htalk
      have hclaimants : Calm c l (l.setClaimants q (addPort p (claimantsOf l q))) := by
        refine ⟨setClaimants_control .., floorLaw_setClaimants _ _, fun X _ h => setClaimants_claims ?_ ?_ h⟩
        · intro x hx
          rcases (mem_addPort _ _ _).1 hx with rfl | hx
          · exact .inr ⟨htalk, ha⟩
          · exact h.1 q x hx
        · exact fun x hx => .inr ((mem_addPort _ _ _).2 (.inr hx))
      refine hclaimants.trans (installClaimed_calm hlaw p (.inl ?_))
      rw [claimantsOf_setClaimants, if_pos rfl]
      exact (mem_addPort _ _ _).2 (.inl rfl)
    · exact .refl c l
  · exact .refl c l

theorem emgRise_calm (p : Port) (l : Live) : Calm c l (emgRise c p l) := by
  unfold emgRise
  split
  · rename_i q _
    split
    · rename_i h
      simp only [Bool.and_eq_true, List.contains_eq_mem, decide_eq_true_eq] at h
      exact installClaimed_calm hlaw p (.inl h.1.2)
    · exact .refl c l
  · exact .refl c l

theorem enterRxActive_calm (p : Port) (l : Live) : Calm c l (enterRxActive c p l) := by
  refine (setRx_calm_of (.inl rfl)).trans (claim_calm hlaw ?_)
  rw [rxActive, Live.setRx_rx, look_put_same]
  rfl

end

/-! ### Releases -/

/-- A port set aside in every patch, beside who is set aside already. -/
def aside (X : Patch → Port → Prop) (p : Port) (q : Patch) (x : Port) : Prop := X q x ∨ x = p

/-- The port stands on no floor and in no claimant set of the patch. -/
def Absent (p : Port) (l : Live) (q : Patch) : Prop := p ∉ claimantsOf l q ∧ p ∉ (ctxOf l q).floor

theorem ClaimsBut.of_absent {X : Patch → Port → Prop} {p : Port} {c : Settings} {l : Live}
    (h : ClaimsBut (aside X p) c l) (hgone : ∀ q, X q p ∨ Absent p l q) : ClaimsBut X c l := by
  refine h.drop (fun q x hx ha => ?_) (fun q x hx ha => ?_)
  · rcases ha with ha | rfl
    · exact ha
    · exact (hgone q).elim id fun hg => absurd hx hg.1
  · rcases ha with ha | rfl
    · exact ha
    · exact (hgone q).elim id fun hg => absurd hx hg.2

/-- Where a port stands neither on the floor nor among the claimants, it does not come back in a hand-on. -/
theorem keyStep_absent {c : Settings} {l l' : Live} (h : KeyStep c l l') {p : Port} {q : Patch} (hl : Absent p l q) :
    Absent p l' q := by
  obtain ⟨hclaims, hfloor⟩ := hl
  refine ⟨?_, ?_⟩
  · rw [(Tuned.of_step h).claims q]
    exact fun hx => hclaims (List.mem_filter.1 hx).1
  · cases h with
    | key r s ms => rwa [ctxOf_key]
    | leave r target => rwa [ctxOf, leaveKeyed_fla]
    | follow r =>
      cases hr : (look l.tx r).reader with
      | none => rwa [syncReader_of_none hr]
      | some z => rwa [syncReader_of_reader hr]
    | floor r floor hplace =>
      rw [ctxOf_setCtx]
      split
      · rename_i hr
        subst hr
        exact fun hx => (hplace.claims p hx).elim hclaims hfloor
      · exact hfloor

theorem absent_of_keyRun {c : Settings} {l l' : Live} (h : KeyRun c l l') {p : Port} {q : Patch} (hl : Absent p l q) :
    Absent p l' q := h.keeps (P := fun m => Absent p m q) (fun _ _ hs => keyStep_absent hs) hl

theorem ctxOf_placeFloor (c : Settings) (q r : Patch) (ctx : Context) (l : Live) :
    ctxOf (placeFloor c q ctx l) r = if r = q then ctx else ctxOf l r := by
  rw [placeFloor_eq, ctxOf_setCtx, ctxOf_foldl_unkeyIfReads]

theorem claimantsOf_placeFloor (c : Settings) (q r : Patch) (ctx : Context) (l : Live) :
    claimantsOf (placeFloor c q ctx l) r = claimantsOf l r := by
  rw [placeFloor_eq, claimantsOf_setCtx, claimantsOf, foldl_unkeyIfReads_fla, claimantsOf]

theorem absent_installFloor {c : Settings} {l : Live} {p : Port} {q : Patch} {floor : List Port}
    (hclaims : p ∉ claimantsOf l q) (hfloor : p ∉ floor) : Absent p (installFloor c q floor l) q := by
  have hplaced : Absent p (placeFloor c q { ctxOf l q with floor := floor } l) q := by
    refine ⟨?_, ?_⟩
    · rwa [claimantsOf_placeFloor]
    · rwa [ctxOf_placeFloor, if_pos rfl]
  unfold installFloor install
  exact absent_of_keyRun (settleKeys_run c _) hplaced

/-- While a port that is not RX_ACTIVE is being released: it is set aside, absent, or a claimant still. -/
def Releasing (X : Patch → Port → Prop) (p : Port) (l : Live) (q : Patch) : Prop :=
  X q p ∨ Absent p l q ∨ p ∈ claimantsOf l q

theorem Releasing.of_keyRun {X : Patch → Port → Prop} {c : Settings} {l l' : Live} {p : Port} {q : Patch}
    (h : Releasing X p l q) (ha : rxActive l p = false) (hrun : KeyRun c l l') : Releasing X p l' q := by
  rcases h with hx | hgone | hclaims
  · exact .inl hx
  · exact .inr (.inl (absent_of_keyRun hrun hgone))
  · refine .inr (.inr ?_)
    rw [hrun.tuned.claims q, unreleased, List.mem_filter]
    refine ⟨hclaims, decide_eq_true ?_⟩
    rcases (hrun.tuned.rx p).2 with ⟨hrx, -⟩ | ⟨hactive, -⟩
    · exact hrx
    · rw [rxActive, hactive] at ha
      exact absurd ha (by decide)

theorem not_rxActive_of_keyRun {c : Settings} {l l' : Live} {p : Port} (ha : rxActive l p = false)
    (hrun : KeyRun c l l') : rxActive l' p = false := by
  rcases (hrun.tuned.rx p).2 with ⟨hrx, -⟩ | ⟨-, hquiet, -⟩
  · rwa [rxActive, hrx]
  · rw [rxActive, hquiet]
    decide

/-- What a release from one patch does: nothing where the port does not claim; else it leaves claimants and floor, and
the place is refilled (R47 to R49). -/
theorem releaseIn_cases (c : Settings) (p : Port) (l : Live) (q : Patch) :
    (p ∉ claimantsOf l q ∧ releaseIn c p l q = l) ∨
      (p ∈ claimantsOf l q ∧ Absent p (releaseIn c p l q) q ∧
        KeyRun c (l.setClaimants q (dropPort p (claimantsOf l q))) (releaseIn c p l q)) := by
  by_cases hp : p ∈ claimantsOf l q
  · refine .inr ⟨hp, ?_⟩
    have hdropped : p ∉ claimantsOf (l.setClaimants q (dropPort p (claimantsOf l q))) q := by
      rw [claimantsOf_setClaimants, if_pos rfl, mem_dropPort]
      exact fun h => h.2 rfl
    unfold releaseIn
    rw [if_pos (by simpa using hp)]
    dsimp only
    split
    · refine ⟨absent_installFloor hdropped fun h => ?_, installFloor_run c q _ _ (fun h => ?_) fun x hx => ?_⟩
      · rcases mem_of_mem_refilledFloor h with h | h
        · exact hdropped h
        · exact ((mem_dropPort _ _ _).1 h).2 rfl
      · refine contextLawful_refilledFloor (contextLawful_fewer ?_ h)
        rw [ctxOf_setClaimants]
        exact length_dropPort_le p _
      · rw [ctxOf_setClaimants]
        exact (mem_of_mem_refilledFloor hx).imp_right fun h => ((mem_dropPort _ _ _).1 h).1
    · rename_i hoff
      simp only [Bool.or_eq_true, not_or, onFloor, List.contains_eq_mem, decide_eq_true_eq] at hoff
      refine ⟨⟨hdropped, ?_⟩, .refl⟩
      exact hoff.1
  · refine .inl ⟨hp, ?_⟩
    rw [releaseIn, if_neg (by simpa using hp)]

section

variable {c : Settings} (hlaw : Lawful c) {X : Patch → Port → Prop} {p : Port}
include hlaw

/-- A release in progress: the port is not RX_ACTIVE, and set aside for the law of claims. -/
structure ReleaseLaw (c : Settings) (X : Patch → Port → Prop) (p : Port) (l : Live) : Prop where
  floor : FloorLaw l
  claims : ClaimsBut (aside X p) c l
  inactive : rxActive l p = false
  releasing : ∀ q, Releasing X p l q

theorem ReleaseLaw.releaseIn {l : Live} (h : ReleaseLaw c X p l) (q : Patch) :
    ReleaseLaw c X p (releaseIn c p l q) ∧ (X q p ∨ Absent p (Machine.releaseIn c p l q) q) := by
  rcases releaseIn_cases c p l q with ⟨hout, heq⟩ | ⟨hin, hgone, hrun⟩
  · rw [heq]
    exact ⟨h, (h.releasing q).imp_right fun hr => hr.resolve_right hout⟩
  · have hclaims : ClaimsBut (aside X p) c (l.setClaimants q (dropPort p (claimantsOf l q))) :=
      setClaimants_claims (fun x hx => h.claims.1 q x ((mem_dropPort _ _ _).1 hx).1)
        (fun x hx => by
          by_cases he : x = p
          · exact .inl (.inr he)
          · exact .inr ((mem_dropPort _ _ _).2 ⟨hx, he⟩)) h.claims
    have hcalm := Calm.of_keyRun hlaw hrun
    refine ⟨⟨(releaseIn_run c p l q).floorLaw h.floor, hcalm.claims _ (floorLaw_setClaimants _ _ h.floor) hclaims,
      not_rxActive_of_keyRun (l := l.setClaimants q _) h.inactive hrun, fun r => ?_⟩, .inr hgone⟩
    by_cases hr : r = q
    · exact .inr (.inl (hr ▸ hgone))
    · refine Releasing.of_keyRun (l := l.setClaimants q _) ?_ h.inactive hrun
      have hsame : claimantsOf (l.setClaimants q (dropPort p (claimantsOf l q))) r = claimantsOf l r := by
        rw [claimantsOf_setClaimants, if_neg hr]
      simpa only [Releasing, Absent, hsame, ctxOf_setClaimants] using h.releasing r

omit hlaw in
theorem absent_releaseIn {l : Live} {q r : Patch} (h : Absent p l q) : Absent p (releaseIn c p l r) q := by
  rcases releaseIn_cases c p l r with ⟨-, heq⟩ | ⟨-, -, hrun⟩
  · rwa [heq]
  · refine absent_of_keyRun hrun ⟨?_, ?_⟩
    · rw [claimantsOf_setClaimants]
      split
      · rename_i hq
        exact fun hp => ((mem_dropPort _ _ _).1 hp).2 rfl
      · exact h.1
    · rw [ctxOf_setClaimants]
      exact h.2

/-- A release takes the port from every floor and claimant set. -/
theorem ReleaseLaw.foldl {qs : List Patch} {l : Live} (h : ReleaseLaw c X p l) :
    ReleaseLaw c X p (qs.foldl (Machine.releaseIn c p) l) ∧
      ∀ q, q ∈ qs ∨ X q p ∨ Absent p l q → X q p ∨ Absent p (qs.foldl (Machine.releaseIn c p) l) q := by
  induction qs generalizing l with
  | nil => exact ⟨h, fun q hq => hq.resolve_left List.not_mem_nil⟩
  | cons r qs ih =>
    obtain ⟨hstep, hgone⟩ := h.releaseIn hlaw r
    obtain ⟨hlast, hall⟩ := ih hstep
    refine ⟨hlast, fun q hq => hall q ?_⟩
    rcases hq with hq | hx | ha
    · rcases List.mem_cons.1 hq with rfl | hq
      · exact .inr hgone
      · exact .inl hq
    · exact .inr (.inl hx)
    · exact .inr (.inr (absent_releaseIn ha))

omit hlaw in
theorem release_control (l : Live) : SameControl l (release c p l) := by
  refine foldl_keeps (fun m => SameControl l m) _ (fun m q h => h.trans ?_) _ l (.refl l)
  rcases releaseIn_cases c p m q with ⟨-, heq⟩ | ⟨-, -, hrun⟩
  · rw [heq]
    exact .refl m
  · exact (setClaimants_control ..).trans (.of_keyRun hrun)

theorem leaveRxActive_calm (p : Port) {target : RxState} (ht : target ≠ .active) (l : Live) :
    Calm c l (leaveRxActive c p target l) := by
  refine ⟨(setRx_control l p _).trans (release_control _), (leaveRxActive_run c p ht l).floorLaw, fun X hf h => ?_⟩
  have hstart : ReleaseLaw c X p (l.setRx p { look l.rx p with rx := target, talk := none }) := by
    refine ⟨hf, ⟨fun q x hx => ?_, fun q x hx => (h.2 q x hx).imp_left .inl⟩, ?_, fun q => ?_⟩
    · by_cases he : x = p
      · exact .inl (.inr he)
      · refine (h.1 q x hx).imp .inl fun ⟨htalk, ha⟩ => ⟨htalk, ?_⟩
        rwa [rxActive, Live.setRx_rx, look_put_ne _ _ _ _ he]
    · rw [rxActive, Live.setRx_rx, look_put_same]
      exact decide_eq_false ht
    · by_cases hp : p ∈ claimantsOf l q
      · exact .inr (.inr hp)
      · by_cases hon : p ∈ (ctxOf l q).floor
        · exact (h.2 q p hon).imp_right fun hc => absurd hc hp
        · exact .inr (.inl ⟨hp, hon⟩)
  obtain ⟨hlast, hgone⟩ := hstart.foldl hlaw (qs := allPatches)
  exact hlast.claims.of_absent fun q => hgone q (.inl (mem_allPatches q))

theorem beginIgnoring_calm (p : Port) (l : Live) : Calm c l (beginIgnoring c p l) := by
  unfold beginIgnoring
  dsimp only
  refine (setRx_calm c l p (x := { look l.rx p with cor := abandonFresh (look l.rx p).cor }) rfl).trans ?_
  split
  · exact leaveRxActive_calm hlaw p (by decide) _
  · exact .refl c _

omit hlaw in
theorem startFreshCor_calm (p : Port) (l : Live) : Calm c l (startFreshCor p l) := setRx_calm c l p rfl

omit hlaw in
theorem liftLockout_calm (p : Port) (l : Live) : Calm c l (liftLockout c p l) := by
  unfold liftLockout
  split
  · rename_i hlocked
    have hquiet : Calm c l (l.setRx p { look l.rx p with rx := .quiet }) :=
      setRx_calm_of (.inr (by rw [rxActive, hlocked]; decide))
    dsimp only
    split
    · exact hquiet
    · exact hquiet.trans (startFreshCor_calm p _)
  · exact .refl c l

omit hlaw in
theorem raise_calm (l : Live) (src : Source) (e : Cond) : Calm c l (l.raise src e) :=
  .of_same (.of_fla rfl rfl rfl rfl rfl rfl rfl) rfl fun _ => rfl

/-! ### Calm events -/

theorem corRise_calm (p : Port) (l : Live) : Calm c l (corRise p c l) := by
  unfold corRise
  dsimp only
  refine (setRx_calm c l p (x := { look l.rx p with cor := Debounce.settled true }) rfl).trans ?_
  split
  · split
    · exact raise_calm _ _ _
    · exact .refl c _
  · unfold receiveRise
    split
    · exact enterRxActive_calm hlaw p _
    · exact .refl c _

theorem corFall_calm (p : Port) (l : Live) : Calm c l (corFall p c l) := by
  unfold corFall
  dsimp only
  refine (setRx_calm c l p (x := { look l.rx p with cor := Debounce.settled false }) rfl).trans ?_
  split
  · exact .refl c _
  · unfold receiveFall
    split
    · exact leaveRxActive_calm hlaw p (by decide) _
    · rename_i hlocked
      exact setRx_calm_of (.inr (by rw [rxActive, hlocked]; decide))
    · exact .refl c _

omit hlaw in
theorem emgFall_calm (p : Port) (l : Live) : Calm c l (emgFall p c l) :=
  setRx_calm c l p (x := { look l.rx p with emg := Debounce.settled false }) rfl

theorem talkTimeUp_calm (p : Port) (l : Live) : Calm c l (talkTimeUp p c l) :=
  (leaveRxActive_calm hlaw p RxState.noConfusion l).trans (raise_calm _ _ _)

theorem hangUp_calm (p : Port) (l : Live) : Calm c l (hangUp p c l) := .of_keyRun hlaw (hangUp_run c p l)

theorem confirmUp_calm (p : Port) (l : Live) : Calm c l (confirmUp p c l) :=
  (Calm.of_keyRun hlaw (KeyRun.single (.leave l p .fault (.inr rfl)))).trans (raise_calm _ _ _)

theorem portRecordChanged_calm (p : Port) (was : Bool) (l : Live) : Calm c l (portRecordChanged c p was l) := by
  unfold portRecordChanged
  repeat' split
  · exact .refl c l
  · exact beginIgnoring_calm hlaw p l
  · exact startFreshCor_calm p l
  · exact .refl c l

theorem clearPort_calm (p : Port) (l : Live) : Calm c l (clearPort c p l) := by
  unfold clearPort
  split
  · exact (Calm.of_keyRun hlaw ((clearFault_run c p l).trans (settleKeys_run c _))).trans (liftLockout_calm p _)
  · exact liftLockout_calm p l

omit hlaw in
theorem recordRaised_calm (d : Settings) (l : Live) : Calm c l (recordRaised d l) :=
  .of_same (.of_fla (by simp) (by simp) (by simp) (by simp) (by simp) (by simp) (by simp)) (by simp) fun _ => by simp

end

end Sys2Proof.ClaimSteps

/-! SUPPORT. The laws of the switch and of the overrides, on the part of the live state that they read. -/

namespace Sys2Proof.Governance

open Sys2Proof.Machine Sys2Proof.Safety Sys2Proof.Claims Sys2Proof.PlanLaws Sys2Proof.Deletions

/-! ### What the Override and Plan Switch Controllers hold -/

/-- The part of the live state that the laws of the switch and of the overrides are about. -/
@[ext] structure Control where
  active : Bank
  ovr : Vector OverrideState 8
  lamps : Vector Bool 18
  holder : Option Patch
  queue : List Patch
  switch : SwitchCtl
  freezing : Patch → Bool
  source : Patch → AudioSource

/-- That part of a live state. -/
def controlOf (l : Live) : Control where
  active := l.active
  ovr := l.ovr
  lamps := l.lamps
  holder := l.guestHolder
  queue := l.guestQueue
  switch := l.switch
  freezing q := (look l.fla q).freezing
  source q := (ctxOf l q).source

namespace Control

/-- A patch is under alert. -/
def alert (k : Control) (q : Patch) : Bool := decide (k.source q = .alert)

/-- A patch has a mayday, a pending mayday or an alert. -/
def overridden (k : Control) (q : Patch) : Bool :=
  (look k.ovr q).mayday.isSome || (look k.ovr q).latch.isSome || k.alert q

/-- A switch is pending. -/
def pending (k : Control) : Bool := decide (k.switch.state = .pending)

/-- A patch freezes by the pending switch. -/
def frozen (k : Control) (q : Patch) : Bool := k.pending && k.switch.involved.contains q

/-- The emergency lamps as the maydays have them. -/
def lamp (k : Control) (p : Port) : Bool := allPatches.any (fun q => (look k.ovr q).mayday == some p)

/-- A patch holds the guest resource or waits for it. -/
def guest (k : Control) (q : Patch) : Bool := k.holder == some q || k.queue.contains q

end Control

/-- A port is a TALK member of a valid patch of a bank. -/
def talkAt (c : Settings) (a : Bank) (q : Patch) (p : Port) : Bool :=
  (if (bankRecord c a q).valid then laneOf (bankRecord c a q) p else none).any (fun m => m.talk)

/-- The patches whose two records differ (R119). -/
def involvedAt (c : Settings) (a : Bank) : List Patch :=
  allPatches.filter (fun q => decide (bankRecord c a q ≠ bankRecord c (standbyBank a) q))

/-- The laws of the switch and of the overrides, of that part. -/
structure Ok (c : Settings) (k : Control) : Prop where
  freezes : ∀ q, k.freezing q = k.frozen q
  plain : ∀ q, k.frozen q = true → k.overridden q = false
  settled : k.pending = false → k.switch.involved = [] ∧ k.switch.grace = none ∧ k.switch.graceFirst = false
  involved : k.pending = true → k.switch.involved = involvedAt c k.active
  states : ∀ q, overrideLawful (look k.ovr q) (k.alert q) = true
  valid : ∀ q, k.alert q = true → (bankRecord c k.active q).valid = true
  members : ∀ q p, (look k.ovr q).mayday = some p ∨ (look k.ovr q).latch = some p → talkAt c k.active q p = true
  lamps : ∀ p, look k.lamps p = k.lamp p
  guests : ∀ q, (look k.ovr q).mayday.isSome = k.guest q
  nodup : k.queue.Nodup
  waits : ∀ q ∈ k.queue, k.holder ≠ some q
  free : k.holder = none → k.queue = []

theorem ok_iff {c : Settings} {l : Live} :
    Ok c (controlOf l) ↔ SwitchLaw l ∧ PendingLaw c l ∧ OverrideLaw c l := by
  constructor
  · intro h
    refine ⟨⟨h.freezes, fun q hp hq => h.plain q ?_, h.settled⟩, h.involved, h.states, h.valid, h.members, h.lamps,
      h.guests, h.nodup, h.waits, h.free⟩
    rw [Control.frozen, Bool.and_eq_true]
    exact ⟨hp, List.contains_iff_mem.2 hq⟩
  · rintro ⟨⟨hfreezes, hplain, hsettled⟩, hinvolved, hstates, hvalid, hmembers, hlamps, hguests, hnodup, hwaits, hfree⟩
    refine ⟨hfreezes, fun q hq => ?_, hsettled, hinvolved, hstates, hvalid, hmembers, hlamps, hguests, hnodup, hwaits, hfree⟩
    rw [Control.frozen, Bool.and_eq_true] at hq
    exact hplain q hq.1 (List.contains_iff_mem.1 hq.2)

section

variable {c : Settings} {k : Control}

/-- A patch whose record is not valid carries no override. -/
theorem Ok.plain_of_invalid (h : Ok c k) {q : Patch} (hv : (bankRecord c k.active q).valid = false) :
    k.overridden q = false := by
  have hnone : ∀ p, talkAt c k.active q p = false := fun p => by simp [talkAt, hv]
  rw [Control.overridden, Bool.or_eq_false_iff, Bool.or_eq_false_iff]
  refine ⟨⟨?_, ?_⟩, ?_⟩
  · cases hm : (look k.ovr q).mayday with
    | none => rfl
    | some p => exact absurd (h.members q p (.inl hm)) (by rw [hnone]; decide)
  · cases hm : (look k.ovr q).latch with
    | none => rfl
    | some p => exact absurd (h.members q p (.inr hm)) (by rw [hnone]; decide)
  · rw [Bool.eq_false_iff]
    intro ha
    rw [h.valid q ha] at hv
    exact absurd hv (by decide)

theorem overrideLawful_iff {o : OverrideState} {alert : Bool} : overrideLawful o alert = true ↔
    o.save1.isSome = o.mayday.isSome ∧ o.save2.isSome = alert ∧ (o.timer != .stopped) = alert ∧
      (o.latch = none ∨ (alert = true ∧ o.mayday = none)) := by
  simp only [overrideLawful, Bool.and_eq_true, Bool.or_eq_true, beq_iff_eq, Option.isNone_iff_eq_none, and_assoc]

theorem Ok.latch_none (h : Ok c k) {q : Patch} (ha : k.alert q = false) : (look k.ovr q).latch = none := by
  obtain ⟨-, -, -, hlatch⟩ := overrideLawful_iff.1 (h.states q)
  exact hlatch.resolve_right fun hb => by rw [ha] at hb; exact absurd hb.1 (by decide)

/-! ### The switch -/

/-- The switch ended: its patches freeze no more. -/
def Control.ended (k : Control) (inv : List Patch) (outcome : LastOutcome) : Control :=
  { k with
    switch := { state := .none, involved := [], grace := none, last := outcome, lastInvolved := inv }
    freezing := fun q => k.freezing q && !inv.contains q }

theorem Ok.ended (h : Ok c k) {inv : List Patch} (outcome : LastOutcome)
    (hinv : k.pending = true → k.switch.involved = inv) : Ok c (k.ended inv outcome) := by
  refine ⟨fun q => ?_, fun q hq => absurd hq (by simp [Control.frozen, Control.ended, Control.pending]),
    fun _ => ⟨rfl, rfl, rfl⟩, fun hp => absurd hp (by simp [Control.ended, Control.pending]), h.states, h.valid, h.members,
    h.lamps, h.guests, h.nodup, h.waits, h.free⟩
  have hnot : (k.ended inv outcome).frozen q = false := by simp [Control.frozen, Control.ended, Control.pending]
  rw [hnot]
  show (k.freezing q && !inv.contains q) = false
  rw [h.freezes q, Control.frozen]
  cases hp : k.pending with
  | false => rfl
  | true =>
    rw [hinv hp]
    cases inv.contains q <;> rfl

/-- The swap: the other bank is ACTIVE, and the involved patches are back in RECEIVE (R125). -/
def Control.swapped (k : Control) (inv : List Patch) (outcome : LastOutcome) : Control :=
  { k.ended inv outcome with
    active := standbyBank k.active
    source := fun q => if inv.contains q then .receive else k.source q }

theorem mem_involvedAt {c : Settings} {a : Bank} {q : Patch} :
    q ∈ involvedAt c a ↔ bankRecord c a q ≠ bankRecord c (standbyBank a) q := by
  simp [involvedAt]

/-- A patch that carries no override is in RECEIVE. -/
theorem Control.source_of_plain {q : Patch} (h : k.overridden q = false) : k.source q = .receive := by
  rw [Control.overridden, Bool.or_eq_false_iff] at h
  cases hs : k.source q with
  | receive => rfl
  | alert => rw [Control.alert, hs] at h; exact absurd h.2 (by decide)

theorem Control.swapped_source (inv : List Patch) (outcome : LastOutcome)
    (hplain : ∀ q ∈ inv, k.overridden q = false) (q : Patch) : (k.swapped inv outcome).source q = k.source q := by
  show (if inv.contains q then AudioSource.receive else k.source q) = k.source q
  split
  · rename_i hq
    exact (k.source_of_plain (hplain q (by simpa using hq))).symm
  · rfl

/-- Of a patch that is not involved both records are the same. -/
theorem bankRecord_of_not_involved {a : Bank} {q : Patch} (hq : q ∉ involvedAt c a) :
    bankRecord c (standbyBank a) q = bankRecord c a q := by
  rw [mem_involvedAt, not_not] at hq
  exact hq.symm

theorem Ok.swapped (h : Ok c k) (outcome : LastOutcome)
    (hplain : ∀ q ∈ involvedAt c k.active, k.overridden q = false) : Ok c (k.swapped (involvedAt c k.active) outcome) := by
  have hended := h.ended outcome (inv := involvedAt c k.active) h.involved
  have hsource : (k.swapped (involvedAt c k.active) outcome).source = k.source :=
    funext (k.swapped_source _ outcome hplain)
  have halert : ∀ q, (k.swapped (involvedAt c k.active) outcome).alert q = k.alert q := fun q => by
    rw [Control.alert, hsource, Control.alert]
  have hrecord : ∀ q, k.overridden q = true → bankRecord c (standbyBank k.active) q = bankRecord c k.active q :=
    fun q ho => bankRecord_of_not_involved fun hq => by rw [hplain q hq] at ho; exact absurd ho (by decide)
  refine ⟨hended.freezes, fun q hq => absurd hq (by simp [Control.frozen, Control.swapped, Control.ended, Control.pending]),
    hended.settled, fun hp => absurd hp (by simp [Control.swapped, Control.ended, Control.pending]), fun q => ?_, fun q hq => ?_,
    fun q p hq => ?_, h.lamps, h.guests, h.nodup, h.waits, h.free⟩
  · rw [halert]
    exact h.states q
  · rw [halert] at hq
    show (bankRecord c (standbyBank k.active) q).valid = true
    rw [hrecord q (by simp [Control.overridden, hq])]
    exact h.valid q hq
  · have ho : k.overridden q = true := by
      rcases hq with hq | hq
      · rw [Control.overridden, show (look k.ovr q).mayday = some p from hq]
        rfl
      · rw [Control.overridden, show (look k.ovr q).latch = some p from hq]
        simp
    show talkAt c (standbyBank k.active) q p = true
    rw [talkAt, hrecord q ho]
    exact h.members q p hq

/-- A switch set pending (R121). -/
def Control.setPending (k : Control) (inv : List Patch) (grace : Nat) : Control :=
  { k with
    switch := { k.switch with state := .pending, involved := inv, grace := some grace }
    freezing := fun q => inv.contains q || k.freezing q }

theorem Ok.setPending (h : Ok c k) (hnot : k.pending = false) (grace : Nat)
    (hplain : ∀ q ∈ involvedAt c k.active, k.overridden q = false) :
    Ok c (k.setPending (involvedAt c k.active) grace) := by
  have hp : (k.setPending (involvedAt c k.active) grace).pending = true := rfl
  refine ⟨fun q => ?_, fun q hq => hplain q ?_, fun hn => ?_, fun _ => rfl, h.states, h.valid, h.members, h.lamps,
    h.guests, h.nodup, h.waits, h.free⟩
  · have hfree : k.freezing q = false := by rw [h.freezes, Control.frozen, hnot, Bool.false_and]
    show ((involvedAt c k.active).contains q || k.freezing q) = _
    rw [hfree, Bool.or_false, Control.frozen, hp]
    rfl
  · rw [Control.frozen, hp, Bool.true_and] at hq
    exact List.contains_iff_mem.1 hq
  · rw [hp] at hn
    exact absurd hn (by decide)

/-! ### Overrides of one patch -/

/-- The override state and the source of one patch replaced. -/
def Control.override (k : Control) (q : Patch) (o : OverrideState) (src : AudioSource) : Control :=
  { k with ovr := put k.ovr q o, source := Function.update k.source q src }

theorem Control.override_ovr (q r : Patch) (o : OverrideState) (src : AudioSource) :
    look (k.override q o src).ovr r = if r = q then o else look k.ovr r := look_put _ _ _ _

/-- What a change of the override state of a patch asks: the patch does not freeze; its new state is lawful for its
source; only a valid patch is alerted; and mayday port and latched port are TALK members (R95, R97, R103, R106). -/
structure Overrides (c : Settings) (k : Control) (q : Patch) (o : OverrideState) (src : AudioSource) : Prop where
  thawed : k.frozen q = false
  lawful : overrideLawful o (decide (src = .alert)) = true
  valid : src = .alert → (bankRecord c k.active q).valid = true
  members : ∀ p, o.mayday = some p ∨ o.latch = some p → talkAt c k.active q p = true

/-- The laws but for lamps and guests, which go with maydays. -/
theorem Ok.overriding {k' : Control} (h : Ok c k) {q : Patch} {o : OverrideState} {src : AudioSource}
    (hq : Overrides c k q o src) (hactive : k'.active = k.active) (hovr : k'.ovr = put k.ovr q o)
    (hsource : k'.source = Function.update k.source q src) (hswitch : k'.switch = k.switch)
    (hfreezing : k'.freezing = k.freezing) (hlamps : ∀ p, look k'.lamps p = k'.lamp p)
    (hguests : ∀ r, (look k'.ovr r).mayday.isSome = k'.guest r) (hnodup : k'.queue.Nodup)
    (hwaits : ∀ r ∈ k'.queue, k'.holder ≠ some r) (hfree : k'.holder = none → k'.queue = []) : Ok c k' := by
  have hlook : ∀ r, look k'.ovr r = if r = q then o else look k.ovr r := fun r => by rw [hovr, look_put]
  have halert : ∀ r, k'.alert r = if r = q then decide (src = .alert) else k.alert r := fun r => by
    simp only [Control.alert, hsource, Function.update_apply]
    split <;> rfl
  have hfrozen : k'.frozen = k.frozen := funext fun r => by
    rw [Control.frozen, Control.pending, hswitch, Control.frozen, Control.pending]
  refine ⟨fun r => by rw [hfreezing, hfrozen]; exact h.freezes r, fun r hr => ?_, fun hp => ?_, fun hp => ?_, fun r => ?_,
    fun r hr => ?_, fun r p hr => ?_, hlamps, hguests, hnodup, hwaits, hfree⟩
  · rw [hfrozen] at hr
    have hne : r ≠ q := fun he => by rw [he, hq.thawed] at hr; exact absurd hr (by decide)
    rw [Control.overridden, hlook, halert, if_neg hne, if_neg hne]
    exact h.plain r hr
  · rw [Control.pending, hswitch] at hp
    rw [hswitch]
    exact h.settled hp
  · rw [Control.pending, hswitch] at hp
    rw [hswitch, hactive]
    exact h.involved hp
  · rw [hlook, halert]
    split
    · exact hq.lawful
    · exact h.states r
  · rw [hactive]
    rw [halert] at hr
    split at hr
    · rename_i he
      rw [he]
      exact hq.valid (of_decide_eq_true hr)
    · exact h.valid r hr
  · rw [hactive]
    rw [hlook] at hr
    split at hr
    · rename_i he
      rw [he]
      exact hq.members p hr
    · exact h.members r p hr

/-- An override that leaves the mayday of its patch: an alert begins or ends, a mayday is latched. -/
theorem Ok.override (h : Ok c k) {q : Patch} {o : OverrideState} {src : AudioSource} (hq : Overrides c k q o src)
    (hsame : o.mayday = (look k.ovr q).mayday) : Ok c (k.override q o src) := by
  have hmayday : ∀ r, (look (k.override q o src).ovr r).mayday = (look k.ovr r).mayday := fun r => by
    rw [Control.override_ovr]
    split
    · rename_i hr
      rw [hr, hsame]
    · rfl
  refine h.overriding hq rfl rfl rfl rfl rfl (fun p => (h.lamps p).trans ?_) (fun r => ?_) h.nodup h.waits h.free
  · simp only [Control.lamp, hmayday]
  · rw [hmayday]
    exact h.guests r

/-- A patch requests the guest resource (R107). -/
def Control.requested (k : Control) (q : Patch) : Control :=
  match k.holder with
  | none => { k with holder := some q }
  | some _ => { k with queue := k.queue ++ [q] }

/-- A mayday begins: the override state, the lamp, the guest resource (R99, R113). -/
def Control.maydayBegun (k : Control) (q : Patch) (p : Port) (o : OverrideState) (src : AudioSource) : Control :=
  { k.override q o src with lamps := put k.lamps p true }.requested q

theorem Control.requested_guest (k : Control) (q r : Patch) (hfree : k.holder = none → k.queue = []) :
    (k.requested q).guest r = (decide (r = q) || k.guest r) := by
  unfold Control.requested
  cases hh : k.holder with
  | none =>
    rw [Bool.eq_iff_iff]
    simp only [Control.guest, hh, hfree hh, Bool.or_eq_true, beq_iff_eq, Option.some.injEq, List.contains_nil,
      decide_eq_true_eq, reduceCtorEq, Bool.false_eq_true, or_false]
    exact eq_comm
  | some x =>
    rw [Bool.eq_iff_iff]
    simp only [Control.guest, hh, Bool.or_eq_true, beq_iff_eq, List.contains_eq_mem, decide_eq_true_eq, List.mem_append,
      List.mem_singleton]
    tauto

/-- The guest resource: each patch waits once, the holder does not wait, and none waits while nobody holds (R107). -/
def Control.ResourceOk (k : Control) : Prop :=
  k.queue.Nodup ∧ (∀ q ∈ k.queue, k.holder ≠ some q) ∧ (k.holder = none → k.queue = [])

theorem Control.requested_resource (k : Control) {q : Patch} (h : k.ResourceOk) (hnew : q ∉ k.queue ∧ k.holder ≠ some q) :
    (k.requested q).ResourceOk := by
  obtain ⟨hnodup, hwaits, hfree⟩ := h
  unfold Control.requested
  split
  · rename_i hnone
    exact ⟨hnodup, fun r hr => absurd (hfree hnone ▸ hr) List.not_mem_nil, fun hn => absurd hn (by simp)⟩
  · rename_i x hsome
    refine ⟨List.nodup_append.2 ⟨hnodup, List.nodup_singleton q, fun y hy z hz he => ?_⟩, fun r hr => ?_,
      fun hn => absurd (hsome.symm.trans hn) (by simp)⟩
    · rw [List.mem_singleton] at hz
      exact hnew.1 (hz ▸ he ▸ hy)
    · rcases List.mem_append.1 hr with hr | hr
      · exact hwaits r hr
      · rw [List.mem_singleton] at hr
        rw [hr]
        exact hnew.2

theorem Ok.maydayBegun (h : Ok c k) {q : Patch} {p : Port} {o : OverrideState} {src : AudioSource}
    (hq : Overrides c k q o src) (hbefore : (look k.ovr q).mayday = none) (hafter : o.mayday = some p) :
    Ok c (k.maydayBegun q p o src) := by
  set k₁ : Control := { k.override q o src with lamps := put k.lamps p true } with hk₁
  show Ok c (k₁.requested q)
  have hfields : (k₁.requested q).active = k.active ∧ (k₁.requested q).ovr = put k.ovr q o ∧
      (k₁.requested q).source = Function.update k.source q src ∧ (k₁.requested q).switch = k.switch ∧
      (k₁.requested q).freezing = k.freezing ∧ (k₁.requested q).lamps = put k.lamps p true := by
    unfold Control.requested
    split <;> exact ⟨rfl, rfl, rfl, rfl, rfl, rfl⟩
  obtain ⟨hactive, hovr, hsource, hswitch, hfreezing, hlamps⟩ := hfields
  have hmayday : ∀ r, (look (k₁.requested q).ovr r).mayday = if r = q then some p else (look k.ovr r).mayday :=
    fun r => by
      rw [hovr, look_put]
      split
      · exact hafter
      · rfl
  have hguest : k.guest q = false := by rw [← h.guests q, hbefore]; rfl
  have hnew : q ∉ k.queue ∧ k.holder ≠ some q := by
    rw [Control.guest, Bool.or_eq_false_iff] at hguest
    exact ⟨by simpa using hguest.2, by simpa using hguest.1⟩
  have hres := k₁.requested_resource (q := q) ⟨h.nodup, h.waits, h.free⟩ hnew
  refine h.overriding hq hactive hovr hsource hswitch hfreezing (fun x => ?lamps) (fun r => ?guests) ?nodup ?waits ?free
  case lamps =>
    rw [hlamps, look_put]
    by_cases hx : x = p
    · subst hx
      rw [if_pos rfl, Control.lamp]
      refine (List.any_eq_true.2 ⟨q, mem_allPatches q, ?_⟩).symm
      rw [hmayday, if_pos rfl]
      exact beq_self_eq_true _
    · rw [if_neg hx, h.lamps, Control.lamp, Control.lamp]
      refine congrArg _ (funext fun r => ?_)
      rw [hmayday]
      split
      · rename_i hr
        have hne : some p ≠ some x := fun he => hx (Option.some.inj he).symm
        rw [hr, hbefore, beq_eq_false_iff_ne.2 hne]
        rfl
      · rfl
  case guests =>
    rw [hmayday, k₁.requested_guest q r h.free]
    by_cases hr : r = q
    · simp [hr]
    · rw [if_neg hr, h.guests]
      simp [hr, Control.guest, hk₁, Control.override]
  case nodup => exact hres.1
  case waits => exact hres.2.1
  case free => exact hres.2.2

/-- A patch gives up the guest resource, or leaves its waiting queue (R102, R108). -/
def Control.givenUp (k : Control) (q : Patch) : Control :=
  if k.holder = some q then
    match k.queue with
    | [] => { k with holder := none }
    | r :: rest => { k with holder := some r, queue := rest }
  else { k with queue := k.queue.filter (fun r => decide (r ≠ q)) }

/-- A mayday ends: the override state, the lamp, the guest resource (R102). -/
def Control.maydayEnded (k : Control) (q : Patch) (p : Port) (o : OverrideState) (src : AudioSource) : Control :=
  { k.override q o src with lamps := put k.lamps p false }.givenUp q

theorem Control.givenUp_guest (k : Control) (q r : Patch)
    (hwaits : ∀ r ∈ k.queue, k.holder ≠ some r) : (k.givenUp q).guest r = (!decide (r = q) && k.guest r) := by
  rw [Bool.eq_iff_iff]
  simp only [Control.guest, Bool.and_eq_true, Bool.not_eq_true', decide_eq_false_iff_not, Bool.or_eq_true, beq_iff_eq,
    List.contains_eq_mem, decide_eq_true_eq]
  unfold Control.givenUp
  split
  · rename_i hh
    split
    · rename_i he
      rw [hh, he]
      simp [eq_comm]
    · rename_i x rest he
      have hq : q ∉ x :: rest := fun hm => hwaits q (he ▸ hm) hh
      rw [hh, he]
      simp only [Option.some.injEq, List.mem_cons]
      constructor
      · rintro (rfl | hr)
        · exact ⟨fun e => hq (e ▸ List.mem_cons_self), .inr (.inl rfl)⟩
        · exact ⟨fun e => hq (e ▸ List.mem_cons_of_mem _ hr), .inr (.inr hr)⟩
      · rintro ⟨hne, rfl | rfl | hr⟩
        · exact absurd rfl hne
        · exact .inl rfl
        · exact .inr hr
  · rename_i hh
    simp only [List.mem_filter, decide_eq_true_eq]
    constructor
    · rintro (hr | ⟨hr, hne⟩)
      · exact ⟨fun e => hh (e ▸ hr), .inl hr⟩
      · exact ⟨hne, .inr hr⟩
    · rintro ⟨hne, hr | hr⟩
      · exact .inl hr
      · exact .inr ⟨hr, hne⟩

theorem Control.givenUp_resource (k : Control) (q : Patch) (h : k.ResourceOk) : (k.givenUp q).ResourceOk := by
  obtain ⟨hnodup, hwaits, hfree⟩ := h
  unfold Control.givenUp
  split
  · split
    · rename_i he
      exact ⟨hnodup, fun r hr => absurd (he ▸ hr) List.not_mem_nil, fun _ => he⟩
    · rename_i x rest he
      rw [he, List.nodup_cons] at hnodup
      exact ⟨hnodup.2, fun r hr hx => hnodup.1 (Option.some.inj hx ▸ hr), fun hn => absurd hn (by simp)⟩
  · refine ⟨hnodup.filter _, fun r hr => hwaits r (List.mem_filter.1 hr).1, fun hn => ?_⟩
    show k.queue.filter _ = []
    rw [hfree hn]
    rfl

theorem talkAt_unique (hplan : PlanLaw c) {a : Bank} {q r : Patch} {p : Port} (hq : talkAt c a q p = true)
    (hr : talkAt c a r p = true) : q = r := by
  have hstands : ∀ x, talkAt c a x p = true → (bankRecord c a x).valid = true ∧ stands (bankRecord c a x) p = true := by
    intro x hx
    unfold talkAt at hx
    split at hx
    · rename_i hv
      refine ⟨hv, ?_⟩
      rw [stands]
      cases hm : laneOf (bankRecord c a x) p with
      | none => rw [hm] at hx; exact absurd hx (by simp)
      | some m => rfl
    · exact absurd hx (by simp)
  obtain ⟨vq, sq⟩ := hstands q hq
  obtain ⟨vr, sr⟩ := hstands r hr
  exact hplan.2 a p q r vq vr sq sr

theorem Ok.maydayEnded (h : Ok c k) (hplan : PlanLaw c) {q : Patch} {p : Port} {o : OverrideState} {src : AudioSource}
    (hq : Overrides c k q o src) (hbefore : (look k.ovr q).mayday = some p) (hafter : o.mayday = none) :
    Ok c (k.maydayEnded q p o src) := by
  set k₁ : Control := { k.override q o src with lamps := put k.lamps p false } with hk₁
  show Ok c (k₁.givenUp q)
  have hfields : (k₁.givenUp q).active = k.active ∧ (k₁.givenUp q).ovr = put k.ovr q o ∧
      (k₁.givenUp q).source = Function.update k.source q src ∧ (k₁.givenUp q).switch = k.switch ∧
      (k₁.givenUp q).freezing = k.freezing ∧ (k₁.givenUp q).lamps = put k.lamps p false := by
    unfold Control.givenUp
    repeat' split
    all_goals exact ⟨rfl, rfl, rfl, rfl, rfl, rfl⟩
  obtain ⟨hactive, hovr, hsource, hswitch, hfreezing, hlamps⟩ := hfields
  have hmayday : ∀ r, (look (k₁.givenUp q).ovr r).mayday = if r = q then none else (look k.ovr r).mayday :=
    fun r => by
      rw [hovr, look_put]
      split
      · exact hafter
      · rfl
  have hres := k₁.givenUp_resource q ⟨h.nodup, h.waits, h.free⟩
  refine h.overriding hq hactive hovr hsource hswitch hfreezing (fun x => ?lamps) (fun r => ?guests) ?nodup ?waits ?free
  case lamps =>
    rw [hlamps, look_put]
    by_cases hx : x = p
    · subst hx
      rw [if_pos rfl, Control.lamp, eq_comm, List.any_eq_false]
      intro r _
      rw [hmayday]
      split
      · simp
      · rename_i hr
        rw [beq_iff_eq]
        exact fun hm => hr (talkAt_unique hplan (h.members r x (.inl hm)) (h.members q x (.inl hbefore)))
    · rw [if_neg hx, h.lamps, Control.lamp, Control.lamp]
      refine congrArg _ (funext fun r => ?_)
      rw [hmayday]
      split
      · rename_i hr
        have hne : some p ≠ some x := fun he => hx (Option.some.inj he).symm
        rw [hr, hbefore, beq_eq_false_iff_ne.2 hne]
        rfl
      · rfl
  case guests =>
    rw [hmayday, k₁.givenUp_guest q r h.waits]
    by_cases hr : r = q
    · simp [hr]
    · rw [if_neg hr, h.guests]
      simp [hr, Control.guest, hk₁, Control.override]
  case nodup => exact hres.1
  case waits => exact hres.2.1
  case free => exact hres.2.2

/-! ### Edits -/

/-- An edit of the records while no switch is pending: the records of the patches that carry overrides stay. -/
theorem Ok.edited {c' : Settings} (h : Ok c k) (hnot : k.pending = false)
    (hrecord : ∀ q, k.overridden q = true → bankRecord c' k.active q = bankRecord c k.active q) : Ok c' k := by
  refine ⟨h.freezes, h.plain, h.settled, fun hp => ?_, h.states, fun q hq => ?_, fun q p hq => ?_, h.lamps, h.guests,
    h.nodup, h.waits, h.free⟩
  · rw [hnot] at hp
    exact absurd hp (by decide)
  · rw [hrecord q (by simp [Control.overridden, hq])]
    exact h.valid q hq
  · have ho : k.overridden q = true := by
      rcases hq with hq | hq <;> simp [Control.overridden, hq]
    rw [talkAt, hrecord q ho]
    exact h.members q p hq

/-- Other settings change nothing. -/
theorem Ok.congr {c' : Settings} (h : Ok c k) (hbanks : c'.banks = c.banks) : Ok c' k := by
  have hrecord : ∀ a q, bankRecord c' a q = bankRecord c a q := fun a q => by rw [bankRecord, hbanks, bankRecord]
  refine ⟨h.freezes, h.plain, h.settled, fun hp => ?_, h.states, fun q hq => ?_, fun q p hq => ?_, h.lamps, h.guests,
    h.nodup, h.waits, h.free⟩
  · rw [h.involved hp]
    simp only [involvedAt, hrecord]
  · rw [hrecord]
    exact h.valid q hq
  · rw [talkAt, hrecord]
    exact h.members q p hq

/-- The counts of a frame: a running alert timer goes on running, a stopped grace timer stays stopped. -/
theorem Ok.ticked {k' : Control} (h : Ok c k) (hactive : k'.active = k.active)
    (hovr : ∀ q, look k'.ovr q = { look k.ovr q with timer := (look k.ovr q).timer.countDown })
    (hlamps : k'.lamps = k.lamps) (hholder : k'.holder = k.holder) (hqueue : k'.queue = k.queue)
    (hswitch : k'.switch = { k.switch with grace := countDown k.switch.grace }) (hfreezing : k'.freezing = k.freezing)
    (hsource : k'.source = k.source) : Ok c k' := by
  have halert : ∀ q, k'.alert q = k.alert q := fun q => by rw [Control.alert, hsource, Control.alert]
  have hpending : k'.pending = k.pending := by rw [Control.pending, hswitch, Control.pending]
  have hfrozen : ∀ q, k'.frozen q = k.frozen q := fun q => by rw [Control.frozen, hpending, hswitch, Control.frozen]
  have hoverridden : ∀ q, k'.overridden q = k.overridden q := fun q => by
    simp only [Control.overridden, hovr, halert]
  have htimer : ∀ t : AlertTimer, (t.countDown != .stopped) = (t != .stopped) := fun t => by cases t <;> rfl
  refine ⟨fun q => ?_, fun q hq => ?_, fun hp => ?_, fun hp => ?_, fun q => ?_, fun q hq => ?_, fun q p hq => ?_,
    fun p => ?_, fun q => ?_, by rw [hqueue]; exact h.nodup, by rw [hqueue, hholder]; exact h.waits,
    by rw [hqueue, hholder]; exact h.free⟩
  · rw [hfreezing, hfrozen]
    exact h.freezes q
  · rw [hfrozen] at hq
    rw [hoverridden]
    exact h.plain q hq
  · rw [hpending] at hp
    obtain ⟨hinv, hgrace, hfirst⟩ := h.settled hp
    rw [hswitch]
    exact ⟨hinv, by rw [hgrace]; rfl, hfirst⟩
  · rw [hpending] at hp
    rw [hswitch, hactive]
    exact h.involved hp
  · rw [halert, hovr]
    have hlawful := overrideLawful_iff.1 (h.states q)
    exact overrideLawful_iff.2 ⟨hlawful.1, hlawful.2.1, by rw [htimer]; exact hlawful.2.2.1, hlawful.2.2.2⟩
  · rw [halert] at hq
    rw [hactive]
    exact h.valid q hq
  · rw [hovr] at hq
    rw [hactive]
    exact h.members q p hq
  · rw [hlamps, h.lamps]
    simp only [Control.lamp, hovr]
  · rw [hovr, Control.guest, hholder, hqueue]
    exact h.guests q

end

end Sys2Proof.Governance

/-! SUPPORT. Switches, forces and aborts keep those laws. -/

namespace Sys2Proof.Governing

open Sys2Proof.Machine Sys2Proof.Safety Sys2Proof.Claims Sys2Proof.PlanLaws Sys2Proof.Deletions Sys2Proof.Signalling
  Sys2Proof.Keying Sys2Proof.LiveSteps Sys2Proof.LiveRuns Sys2Proof.ClaimSteps Sys2Proof.Governance

/-! ### Laws of floors and claims -/

/-- An operation that keeps the laws of floors and claims, whoever is set aside. -/
structure Fair (c : Settings) (l l' : Live) : Prop where
  floor : FloorLaw l → FloorLaw l'
  claims : ∀ X, FloorLaw l → ClaimsBut X c l → ClaimsBut X c l'

theorem fair_of_calm {c : Settings} {l l' : Live} (h : Calm c l l') : Fair c l l' := ⟨h.floor, h.claims⟩

theorem Fair.refl (c : Settings) (l : Live) : Fair c l l := ⟨id, fun _ _ => id⟩

theorem Fair.trans {c : Settings} {a b d : Live} (h : Fair c a b) (k : Fair c b d) : Fair c a d :=
  ⟨fun hf => k.floor (h.floor hf), fun X hf hc => k.claims X (h.floor hf) (h.claims X hf hc)⟩

theorem Fair.foldl {α : Type} {c : Settings} {f : Live → α → Live} (xs : List α) (hf : ∀ l, ∀ x ∈ xs, Fair c l (f l x))
    (l : Live) : Fair c l (xs.foldl f l) :=
  foldl_keeps_mem (fun l' => Fair c l l') f xs (fun _ x hx h => h.trans (hf _ x hx)) l (.refl c l)

/-- Floors, claims, receive states, saves and bank stay. -/
theorem Fair.of_same {c : Settings} {l l' : Live} (hfla : ∀ q, claimantsOf l' q = claimantsOf l q ∧ ctxOf l' q = ctxOf l q)
    (hrx : ∀ p, (look l'.rx p).rx = (look l.rx p).rx) (hovr : l'.ovr = l.ovr) (hactive : l'.active = l.active) :
    Fair c l l' :=
  ⟨fun hf => floorLaw_congr hf (fun q => (hfla q).2) hovr,
    fun _ _ hc => hc.congr (fun q => ⟨(hfla q).1, by rw [(hfla q).2]⟩) hrx hactive⟩

theorem setOvr_fair {c : Settings} {l : Live} {q : Patch} {o : OverrideState} (ho : FloorLaw l → SavesFit o) :
    Fair c l (l.setOvr q o) :=
  ⟨fun hf => floorLaw_setOvr hf (ho hf), fun _ _ hc => hc.congr (fun _ => ⟨rfl, rfl⟩) (fun _ => rfl) rfl⟩

theorem setLamp_fair (c : Settings) (p : Port) (b : Bool) (l : Live) : Fair c l (l.setLamp p b) :=
  .of_same (fun _ => ⟨rfl, rfl⟩) (fun _ => rfl) rfl rfl

theorem setGuests_fair (c : Settings) (l : Live) (holder : Option Patch) (queue : List Patch) :
    Fair c l { l with guestHolder := holder, guestQueue := queue } :=
  .of_same (fun _ => ⟨rfl, rfl⟩) (fun _ => rfl) rfl rfl

theorem claimantsOf_setFreezing (l : Live) (q r : Patch) (b : Bool) :
    claimantsOf (l.setFreezing q b) r = claimantsOf l r := by
  rw [claimantsOf, Live.setFreezing_fla, look_put]
  split
  · rename_i hr
    rw [hr]
    rfl
  · rfl

theorem setFreezing_fair (c : Settings) (q : Patch) (b : Bool) (l : Live) : Fair c l (l.setFreezing q b) :=
  .of_same (fun r => ⟨claimantsOf_setFreezing l q r b, ctxOf_setFreezing l q r b⟩) (fun _ => rfl) rfl rfl

/-- A floor of claimants, or of ports that were on it, put in place. -/
theorem setCtx_claims {X : Patch → Port → Prop} {c : Settings} {l : Live} {q : Patch} {ctx : Context}
    (hclaims : ∀ p ∈ ctx.floor, p ∈ claimantsOf l q ∨ p ∈ (ctxOf l q).floor) (h : ClaimsBut X c l) :
    ClaimsBut X c (l.setCtx q ctx) := by
  refine ⟨fun r x hx => ?_, fun r x hx => ?_⟩
  · rw [claimantsOf_setCtx] at hx
    exact h.1 r x hx
  · rw [claimantsOf_setCtx]
    rw [ctxOf_setCtx] at hx
    split at hx
    · rename_i hr
      subst hr
      exact (hclaims x hx).elim .inr (h.2 r x)
    · exact h.2 r x hx

/-! ### Control of floors -/

theorem SameControl.eq {l l' : Live} (h : SameControl l l') : controlOf l' = controlOf l := by
  obtain ⟨hactive, hovr, hlamps, hholder, hqueue, hswitch, hfreezing, hsource⟩ := h
  exact Control.ext hactive hovr hlamps hholder hqueue hswitch (funext hfreezing) (funext hsource)

theorem Calm.eq {c : Settings} {l l' : Live} (h : Calm c l l') : controlOf l' = controlOf l := SameControl.eq h.control

theorem control_setOvr (l : Live) (q : Patch) (o : OverrideState) :
    controlOf (l.setOvr q o) = { controlOf l with ovr := put l.ovr q o } := rfl

theorem control_setFreezing (l : Live) (q : Patch) (b : Bool) :
    controlOf (l.setFreezing q b) = { controlOf l with freezing := Function.update (controlOf l).freezing q b } := by
  refine Control.ext rfl rfl rfl rfl rfl rfl (funext fun r => ?_) (funext fun r => ?_)
  · show (look (l.setFreezing q b).fla r).freezing = _
    rw [Live.setFreezing_fla, look_put]
    dsimp only
    rw [Function.update_apply]
    split <;> rfl
  · show (ctxOf (l.setFreezing q b) r).source = _
    rw [ctxOf_setFreezing]
    rfl

theorem control_setCtx (l : Live) (q : Patch) (ctx : Context) :
    controlOf (l.setCtx q ctx) =
      { controlOf l with source := Function.update (controlOf l).source q ctx.source } := by
  refine Control.ext rfl rfl rfl rfl rfl rfl (funext fun r => ?_) (funext fun r => ?_)
  · show (look (l.setCtx q ctx).fla r).freezing = (look l.fla r).freezing
    rw [Live.setCtx_fla, look_put]
    split
    · rename_i hr
      rw [hr]
    · rfl
  · show (ctxOf (l.setCtx q ctx) r).source = _
    rw [ctxOf_setCtx]
    dsimp only
    rw [Function.update_apply]
    split <;> rfl

theorem control_keyRun {c : Settings} {l l' : Live} (h : KeyRun c l l') : controlOf l' = controlOf l :=
  SameControl.eq (.of_keyRun h)

theorem control_placeFloor (c : Settings) (q : Patch) (ctx : Context) (l : Live) :
    controlOf (placeFloor c q ctx l) =
      { controlOf l with source := Function.update (controlOf l).source q ctx.source } := by
  rw [placeFloor_eq, control_setCtx, control_keyRun (foldl_unkeyIfReads_run c q _ l)]

theorem control_install (c : Settings) (q : Patch) (ctx : Context) (l : Live) :
    controlOf (install c q ctx l) =
      { controlOf l with source := Function.update (controlOf l).source q ctx.source } := by
  rw [install, control_keyRun (settleKeys_run c _), control_placeFloor]

theorem control_installRestricted (c : Settings) (q : Patch) (ctx : Context) (l : Live) :
    controlOf (installRestricted c q ctx l) =
      { controlOf l with source := Function.update (controlOf l).source q ctx.source } := by
  rw [installRestricted, control_keyRun (settleKeys_run c _),
    control_keyRun (KeyRun.foldl _ (fun l p _ => keyLoser_run c q l p) _), control_placeFloor]

/-- A context whose source its patch has already. -/
theorem Control.update_source_self (k : Control) {q : Patch} {src : AudioSource} (h : k.source q = src) :
    { k with source := Function.update k.source q src } = k := by
  rw [← h, Function.update_eq_self]

section

variable {c : Settings} (hlaw : Lawful c)
include hlaw

theorem placeFloor_claims {X : Patch → Port → Prop} {q : Patch} {ctx : Context} {l : Live}
    (hclaims : ∀ p ∈ ctx.floor, p ∈ claimantsOf l q ∨ p ∈ (ctxOf l q).floor) (hf : FloorLaw l) (h : ClaimsBut X c l) :
    ClaimsBut X c (placeFloor c q ctx l) := by
  rw [placeFloor_eq]
  refine setCtx_claims (fun p hp => ?_) ((Calm.of_keyRun hlaw (foldl_unkeyIfReads_run c q _ l)).claims X hf h)
  rw [claimantsOf, ctxOf, foldl_unkeyIfReads_fla]
  exact hclaims p hp

theorem placeFloor_fair {q : Patch} {ctx : Context} {l : Live} (hfits : FloorLaw l → contextLawful ctx = true)
    (hclaims : ∀ p ∈ ctx.floor, p ∈ claimantsOf l q ∨ p ∈ (ctxOf l q).floor) : Fair c l (placeFloor c q ctx l) :=
  ⟨(place_run c q hfits).floorLaw, fun _ => placeFloor_claims hlaw hclaims⟩

theorem install_fair {q : Patch} {ctx : Context} {l : Live} (hfits : FloorLaw l → contextLawful ctx = true)
    (hclaims : ∀ p ∈ ctx.floor, p ∈ claimantsOf l q ∨ p ∈ (ctxOf l q).floor) : Fair c l (install c q ctx l) :=
  (placeFloor_fair hlaw hfits hclaims).trans (fair_of_calm (Calm.of_keyRun hlaw (settleKeys_run c _)))

theorem installRestricted_fair {q : Patch} {ctx : Context} {l : Live} (hfits : FloorLaw l → contextLawful ctx = true)
    (hclaims : ∀ p ∈ ctx.floor, p ∈ claimantsOf l q ∨ p ∈ (ctxOf l q).floor) :
    Fair c l (installRestricted c q ctx l) :=
  (placeFloor_fair hlaw hfits hclaims).trans <|
    (fair_of_calm (Calm.of_keyRun hlaw (KeyRun.foldl _ (fun l p _ => keyLoser_run c q l p) _))).trans
      (fair_of_calm (Calm.of_keyRun hlaw (settleKeys_run c _)))

end

/-! ### The laws together -/

/-- The laws of floors, claims, switch and overrides. -/
structure Governed (c : Settings) (l : Live) : Prop where
  ok : Ok c (controlOf l)
  floor : FloorLaw l
  claims : ClaimsBut nobody c l

theorem Governed.calm {c : Settings} {l l' : Live} (h : Governed c l) (hc : Calm c l l') : Governed c l' :=
  ⟨by rw [Calm.eq hc]; exact h.ok, hc.floor h.floor, hc.claims _ h.floor h.claims⟩

/-- An operation that keeps floors and claims and takes the rest where its laws hold. -/
theorem Governed.fair {c : Settings} {l l' : Live} (h : Governed c l) (hf : Fair c l l') {k : Control}
    (hk : controlOf l' = k) (hok : Ok c k) : Governed c l' :=
  ⟨hk ▸ hok, hf.floor h.floor, hf.claims _ h.floor h.claims⟩

/-! ### Rings and readers -/

section

variable {c : Settings} (hlaw : Lawful c)

theorem emptyRing_calm (q : Patch) (l : Live) : Calm c l (emptyRing q l) :=
  .of_same (.of_fla rfl rfl rfl rfl rfl rfl rfl) rfl fun _ => rfl

theorem setTx_calm (l : Live) (p : Port) (t : TxPort) : Calm c l (l.setTx p t) :=
  .of_same (.of_fla rfl rfl rfl rfl rfl rfl rfl) rfl fun _ => rfl

theorem flushRing_calm (q : Patch) (l : Live) : Calm c l (flushRing q l) :=
  (Calm.foldl (readersOf l q) (fun l p _ => setTx_calm l p (flushReader _ (look l.tx p))) l).trans (emptyRing_calm q _)

include hlaw in
theorem arbitrateFresh_calm (l : Live) (q : Patch) : Calm c l (arbitrateFresh c l q) := by
  have hrecord : ∀ p, p ∈ recordClaimants c l q ↔ talkMember c l q p = true ∧ rxActive l p = true := fun p => by
    simp [recordClaimants]
  have hclaimants : Calm c l (l.setClaimants q (recordClaimants c l q)) :=
    ⟨setClaimants_control .., floorLaw_setClaimants _ _, fun X _ h => setClaimants_claims
      (fun p hp => .inr ((hrecord p).1 hp)) (fun p hp => (h.1 q p hp).imp_right (hrecord p).2) h⟩
  refine hclaimants.trans (.of_keyRun hlaw (installFloor_run c q _ _ (fun h => ?_) fun x hx => ?_))
  · exact contextLawful_refilledFloor (contextLawful_fewer (Nat.zero_le _) h)
  · exact (mem_of_mem_refilledFloor hx).imp_right fun h => absurd h List.not_mem_nil

/-! ### Default floors -/

theorem claimantsOf_defaultFloor (d : Settings) (l : Live) (q r : Patch) :
    claimantsOf (defaultFloor d l q) r = if r = q then [] else claimantsOf l r := by
  rw [claimantsOf, defaultFloor, Live.setFloor_fla, look_put]
  split <;> rfl

theorem control_defaultFloor (d : Settings) (l : Live) (q : Patch) :
    controlOf (defaultFloor d l q) = { controlOf l with
      freezing := Function.update (controlOf l).freezing q false
      source := Function.update (controlOf l).source q .receive } := by
  refine Control.ext rfl rfl rfl rfl rfl rfl (funext fun r => ?_) (funext fun r => ?_)
  · show (look (defaultFloor d l q).fla r).freezing = _
    rw [defaultFloor, Live.setFloor_fla, look_put]
    dsimp only
    rw [Function.update_apply]
    split <;> rfl
  · show (ctxOf (defaultFloor d l q) r).source = _
    rw [ctxOf_defaultFloor]
    dsimp only
    rw [Function.update_apply]
    split <;> rfl

/-- Nobody need be set aside in a patch whose floor is the default one. -/
theorem defaultFloor_claims {d : Settings} {X Y : Patch → Port → Prop} {l : Live} {q : Patch}
    (hxy : ∀ r p, r ≠ q → X r p → Y r p) (h : ClaimsBut X c l) : ClaimsBut Y c (defaultFloor d l q) := by
  refine ⟨fun r p hp => ?_, fun r p hp => ?_⟩
  · rw [claimantsOf_defaultFloor] at hp
    split at hp
    · exact absurd hp List.not_mem_nil
    · rename_i hr
      exact (h.1 r p hp).imp_left (hxy r p hr)
  · rw [ctxOf_defaultFloor] at hp
    split at hp
    · exact absurd hp List.not_mem_nil
    · rename_i hr
      rw [claimantsOf_defaultFloor, if_neg hr]
      exact (h.2 r p hp).imp_left (hxy r p hr)

/-- Every port of some patches. -/
def membersOf (qs : List Patch) (q : Patch) (_ : Port) : Prop := q ∈ qs

theorem startFresh_foldl_claims (qs : List Patch) {l : Live} (h : ClaimsBut (membersOf qs) c l) :
    ClaimsBut nobody c (qs.foldl (startFresh c) l) := by
  induction qs generalizing l with
  | nil => exact h.mono fun q p hq => absurd hq List.not_mem_nil
  | cons q qs ih =>
    refine ih ?_
    have hdefault : ClaimsBut (membersOf qs) c (defaultFloor c l q) :=
      defaultFloor_claims (fun r p hr hx => (List.mem_cons.1 hx).resolve_left hr) h
    exact hdefault.congr (fun _ => ⟨rfl, rfl⟩) (fun _ => rfl) rfl

theorem control_startFresh_foldl (qs : List Patch) (l : Live) :
    controlOf (qs.foldl (startFresh c) l) = { controlOf l with
      freezing := fun q => (controlOf l).freezing q && !qs.contains q
      source := fun q => if qs.contains q then .receive else (controlOf l).source q } := by
  induction qs generalizing l with
  | nil => simp
  | cons q qs ih =>
    rw [List.foldl_cons, ih, startFresh, Calm.eq (c := c) (emptyRing_calm q _), control_defaultFloor]
    refine Control.ext rfl rfl rfl rfl rfl rfl (funext fun r => ?_) (funext fun r => ?_)
    · by_cases hr : r = q <;> simp [hr]
    · by_cases hr : r = q <;> simp [hr]

theorem swapFault_calm (hlaw : Lawful c) (inv : List Patch) (l : Live) (p : Port) : Calm c l (swapFault c inv l p) := by
  unfold swapFault
  split
  · exact .of_keyRun hlaw (clearFault_run c p l)
  · exact .refl c l

/-! ### Switches -/

theorem flipBanks_claims {l : Live} (h : ClaimsBut nobody c l) :
    ClaimsBut (membersOf (involvedSet c l)) c (flipBanks l) := by
  refine ⟨fun q p hp => ?_, fun q p hp => .inr ((h.2 q p hp).resolve_left id)⟩
  by_cases hq : q ∈ involvedSet c l
  · exact .inl hq
  · obtain ⟨htalk, ha⟩ := (h.1 q p hp).resolve_left id
    refine .inr ⟨?_, ha⟩
    have hrecord : activeRecord c (flipBanks l) q = activeRecord c l q := bankRecord_of_not_involved (a := l.active) hq
    rwa [talkMember, memberIn, hrecord]

/-- A swap of the patches whose records differ, none of them under an override (R119, R125). -/
theorem swap_governed (hlaw : Lawful c) (outcome : LastOutcome) {l : Live} (h : Governed c l)
    (hplain : ∀ q ∈ involvedSet c l, overridden l q = false) : Governed c (swap c (involvedSet c l) outcome l) := by
  set inv := involvedSet c l with hinv
  let fresh := inv.foldl (startFresh c) (flipBanks l)
  have hfresh : ClaimsBut nobody c fresh := startFresh_foldl_claims inv (flipBanks_claims h.claims)
  have hfloor : FloorLaw fresh :=
    (Run.foldl inv (fun l q _ => startFresh_run c l q) _).floorLaw ((flipBanks_run c l).floorLaw h.floor)
  have hcalm : Calm c fresh (inv.foldl (arbitrateFresh c) (allPorts.foldl (swapFault c inv) fresh)) :=
    (Calm.foldl allPorts (fun l p _ => swapFault_calm hlaw inv l p) fresh).trans
      (Calm.foldl inv (fun l q _ => arbitrateFresh_calm hlaw l q) _)
  have hend : Fair c (inv.foldl (arbitrateFresh c) (allPorts.foldl (swapFault c inv) fresh)) (swap c inv outcome l) :=
    .of_same (fun _ => ⟨rfl, rfl⟩) (fun _ => rfl) rfl rfl
  refine ⟨?_, hend.floor (hcalm.floor hfloor), hend.claims _ (hcalm.floor hfloor) (hcalm.claims _ hfloor hfresh)⟩
  have hcontrol : controlOf (swap c inv outcome l) = (controlOf l).swapped inv outcome := by
    have hlast : controlOf (swap c inv outcome l) = { controlOf
        (inv.foldl (arbitrateFresh c) (allPorts.foldl (swapFault c inv) fresh)) with
        switch := { state := .none, involved := [], grace := none, last := outcome, lastInvolved := inv } } := rfl
    rw [hlast, Calm.eq hcalm, control_startFresh_foldl]
    rfl
  rw [hcontrol]
  exact h.ok.swapped outcome hplain

theorem cutPatch_calm (hlaw : Lawful c) (l : Live) (q : Patch) : Calm c l (cutPatch c l q) := by
  have hempty : Calm c l (l.setCtx q { ctxOf l q with floor := [] }) := by
    refine ⟨?_, fun hl => floorLaw_setCtx hl (contextLawful_fewer (Nat.zero_le _) (hl q).1), fun X _ hc =>
      setCtx_claims (fun p hp => absurd hp List.not_mem_nil) hc⟩
    refine ⟨rfl, rfl, rfl, rfl, rfl, rfl, fun r => ?_, fun r => ?_⟩
    · exact congrFun (congrArg Control.freezing (control_setCtx l q { ctxOf l q with floor := [] })) r
    · rw [ctxOf_setCtx]
      split
      · rename_i hr
        rw [hr]
      · rfl
  unfold cutPatch
  dsimp only
  exact hempty.trans <| (Calm.of_keyRun hlaw (KeyRun.foldl _ (fun l p _ => unkey_run c p l) _)).trans (emptyRing_calm q _)

theorem force_governed (hlaw : Lawful c) {l : Live} (h : Governed c l)
    (hplain : ∀ q ∈ involvedSet c l, overridden l q = false) : Governed c (force c (involvedSet c l) l) := by
  have hcalm : Calm c l ((involvedSet c l).foldl (cutPatch c) l) :=
    Calm.foldl _ (fun l q _ => cutPatch_calm hlaw l q) l
  unfold force
  generalize (involvedSet c l).foldl (cutPatch c) l = m at hcalm
  have hcontrol := Calm.eq hcalm
  have hsame : involvedSet c m = involvedSet c l := congrArg (fun k : Control => involvedAt c k.active) hcontrol
  rw [← hsame]
  refine swap_governed hlaw .forced (h.calm hcalm) fun q hq => ?_
  have hoverridden : overridden m q = overridden l q := congrArg (fun k : Control => k.overridden q) hcontrol
  rw [hoverridden]
  exact hplain q (hsame ▸ hq)

theorem control_thawPatch (l : Live) (q : Patch) :
    controlOf (thawPatch c l q) = { controlOf l with freezing := Function.update (controlOf l).freezing q false } := by
  rw [control_keyRun (thaw_floor_run c l q), control_setFreezing]

theorem control_thaw_foldl (qs : List Patch) (l : Live) :
    controlOf (qs.foldl (thawPatch c) l) =
      { controlOf l with freezing := fun q => (controlOf l).freezing q && !qs.contains q } := by
  induction qs generalizing l with
  | nil => simp
  | cons q qs ih =>
    rw [List.foldl_cons, ih, control_thawPatch]
    refine Control.ext rfl rfl rfl rfl rfl rfl (funext fun r => ?_) rfl
    by_cases hr : r = q <;> simp [hr]

theorem control_abort (reason : AbortReason) (l : Live) :
    controlOf (abort c reason l) = (controlOf l).ended l.switch.involved (.aborted reason) := by
  have hlast : controlOf (abort c reason l) = { controlOf (l.switch.involved.foldl (thawPatch c) l) with
      switch := { state := .none, involved := [], grace := none, last := .aborted reason,
                  lastInvolved := l.switch.involved } } := rfl
  rw [hlast, control_thaw_foldl]
  rfl

theorem abort_fair (hlaw : Lawful c) (reason : AbortReason) (l : Live) : Fair c l (abort c reason l) := by
  have hthaw : Fair c l (l.switch.involved.foldl (thawPatch c) l) := Fair.foldl _ (fun l q _ =>
    (setFreezing_fair c q false l).trans (fair_of_calm (Calm.of_keyRun hlaw (thaw_floor_run c l q)))) l
  exact hthaw.trans (.of_same (fun _ => ⟨rfl, rfl⟩) (fun _ => rfl) rfl rfl)

theorem abort_governed (hlaw : Lawful c) (reason : AbortReason) {l : Live} (h : Governed c l) :
    Governed c (abort c reason l) :=
  h.fair (abort_fair hlaw reason l) (control_abort reason l) (h.ok.ended _ fun _ => rfl)

theorem control_setPending (inv : List Patch) (grace : Nat) (l : Live) :
    controlOf (setPending inv grace l) = (controlOf l).setPending inv (Config.framesPerSecond * grace) := by
  have hfold : ∀ l : Live, controlOf (inv.foldl freezePatch l) =
      { controlOf l with freezing := fun q => inv.contains q || (controlOf l).freezing q } := by
    induction inv with
    | nil => intro l; simp
    | cons q qs ih =>
      intro l
      rw [List.foldl_cons, ih, freezePatch, control_setFreezing]
      refine Control.ext rfl rfl rfl rfl rfl rfl (funext fun r => ?_) rfl
      by_cases hr : r = q <;> simp [hr]
  have hlast : controlOf (setPending inv grace l) = { controlOf (inv.foldl freezePatch l) with
      switch := { (inv.foldl freezePatch l).switch with
        state := .pending, involved := inv, grace := some (Config.framesPerSecond * grace) } } := rfl
  have hswitch : (inv.foldl freezePatch l).switch = l.switch := congrArg Control.switch (hfold l)
  rw [hlast, hswitch, hfold]
  rfl

theorem setPending_fair (inv : List Patch) (grace : Nat) (l : Live) : Fair c l (setPending inv grace l) :=
  (Fair.foldl inv (fun l q _ => setFreezing_fair c q true l) l).trans
    (.of_same (fun _ => ⟨rfl, rfl⟩) (fun _ => rfl) rfl rfl)

/-- The idle test at the end of an event keeps the laws: what it swaps are the patches whose records differ. -/
theorem idleTest_governed (hlaw : Lawful c) {l : Live} (h : Governed c l) : Governed c (idleTest c l) := by
  rcases idleTest_cases c l with heq | ⟨hp, -, hswitch⟩
  · rw [heq]
    exact h
  · have hinv : l.switch.involved = involvedSet c l := h.ok.involved hp
    have hplain : ∀ q ∈ involvedSet c l, overridden l q = false := fun q hq => h.ok.plain q (by
      rw [Control.frozen, Bool.and_eq_true]
      exact ⟨hp, List.contains_iff_mem.2 (hinv ▸ hq)⟩)
    rcases hswitch with ⟨-, heq⟩ | ⟨-, heq⟩
    · rw [heq, hinv]
      exact swap_governed hlaw .done h hplain
    · rw [heq, hinv]
      exact force_governed hlaw h hplain

theorem closeEvent_governed (hlaw : Lawful c) {l : Live} (h : Governed c l) : Governed c (closeEvent c l) :=
  (idleTest_governed hlaw h).calm (recordRaised_calm c _)

end

end Sys2Proof.Governing

/-! SUPPORT. Maydays, alerts and the guest resource keep them. -/

namespace Sys2Proof.GoverningOverrides

open Sys2Proof.Machine Sys2Proof.Safety Sys2Proof.Claims Sys2Proof.PlanLaws Sys2Proof.Deletions Sys2Proof.Signalling
  Sys2Proof.Keying Sys2Proof.LiveSteps Sys2Proof.LiveRuns Sys2Proof.ClaimSteps Sys2Proof.Governance Sys2Proof.Governing

/-! ### Floors of claimants -/

theorem mem_of_mem_eligibleFloor {c : Settings} {l : Live} {q : Patch} {mp p : Port} (h : p ∈ eligibleFloor c l q mp) :
    p ∈ claimantsOf l q := by
  rw [eligibleFloor, Option.mem_toList] at h
  exact (List.mem_filter.1 (mem_of_select h)).1

theorem mem_claimants_of_keepsUnder {c : Settings} {l : Live} {q : Patch} {mp p : Port}
    (h : keepsUnder c l q mp p = true) : p ∈ claimantsOf l q := by
  rw [keepsUnder, Bool.and_eq_true] at h
  exact List.contains_iff_mem.1 h.1

theorem mem_of_mem_maydayFloor {c : Settings} {l : Live} {q : Patch} {mp p : Port} {floor : List Port}
    (h : p ∈ maydayFloor c l q mp floor) : p ∈ claimantsOf l q := by
  unfold maydayFloor at h
  split at h
  · rename_i hm
    rw [List.mem_singleton] at h
    rw [h]
    exact List.contains_iff_mem.1 hm
  · split at h
    · rename_i x hx
      rw [List.mem_singleton] at h
      rw [h]
      exact mem_claimants_of_keepsUnder (List.mem_filter.1 (mem_of_select hx)).2
    · exact mem_of_mem_eligibleFloor h

theorem mem_of_mem_restoredMaydayFloor {c : Settings} {l : Live} {q : Patch} {mp p : Port} {saved : List Port}
    (h : p ∈ restoredMaydayFloor c l q mp saved) : p ∈ claimantsOf l q := by
  unfold restoredMaydayFloor at h
  split at h
  · rename_i hm
    rw [List.mem_singleton] at h
    rw [h]
    exact List.contains_iff_mem.1 hm
  · split at h
    · split at h
      · rename_i hk
        rw [List.mem_singleton] at h
        rw [h]
        exact mem_claimants_of_keepsUnder hk
      · exact mem_of_mem_eligibleFloor h
    · exact mem_of_mem_eligibleFloor h

theorem mem_of_mem_rebuiltFloor {c : Settings} {l : Live} {q : Patch} {mode : Mode} {saved : List Port} {p : Port}
    (h : p ∈ rebuiltFloor c l q mode saved) : p ∈ claimantsOf l q := by
  have hkept : ∀ x ∈ saved.filter (fun x => (claimantsOf l q).contains x), x ∈ claimantsOf l q := fun x hx =>
    List.contains_iff_mem.1 (List.mem_filter.1 hx).2
  unfold rebuiltFloor at h
  dsimp only at h
  split at h
  · split at h
    · rename_i x rest heq
      rw [List.mem_singleton] at h
      rw [h]
      exact hkept x (heq ▸ List.mem_cons_self)
    · rw [Option.mem_toList] at h
      exact mem_of_select h
  · rw [mem_portSet] at h
    rcases List.mem_append.1 h with h | h
    · exact hkept p h
    · exact (List.mem_filter.1 (mem_of_mem_selectMany h)).1

theorem mem_of_mem_restoredContext {c : Settings} {l : Live} {q : Patch} {sv : Context} {p : Port}
    (h : p ∈ (restoredContext c l q sv).floor) : p ∈ claimantsOf l q := by
  unfold restoredContext at h
  split at h
  · exact mem_of_mem_rebuiltFloor h
  · exact mem_of_mem_restoredMaydayFloor h

theorem source_restoredContext (c : Settings) (l : Live) (q : Patch) (sv : Context) :
    (restoredContext c l q sv).source = .receive := by
  unfold restoredContext
  split <;> rfl

section

variable {c : Settings} (hlaw : Lawful c)

/-! ### Guests -/

theorem attach_keyRun (q : Patch) (l : Live) :
    KeyRun c { l with guestHolder := some q } (attach c q l) :=
  (KeyRun.foldl consolePorts (fun l p _ => unkey_run c p l) _).trans <|
    (guestKeys_run c q _).trans (settleKeys_run c _)

theorem control_attach (q : Patch) (l : Live) : controlOf (attach c q l) = { controlOf l with holder := some q } :=
  control_keyRun (attach_keyRun q l)

theorem control_detach (q : Patch) (l : Live) : controlOf (detach c q l) = { controlOf l with holder := none } := by
  have hunkeyed := control_keyRun (unkeyGuests_run c q l)
  unfold detach
  dsimp only
  rw [control_keyRun (settleKeys_run c _)]
  generalize consolePorts.foldl (fun l p => if reads l p q then unkey c p l else l) l = m at hunkeyed
  rw [← hunkeyed]
  rfl

theorem control_requestGuest (q : Patch) (l : Live) : controlOf (requestGuest c q l) = (controlOf l).requested q := by
  unfold requestGuest Control.requested
  show _ = match l.guestHolder with
    | none => { controlOf l with holder := some q }
    | some _ => { controlOf l with queue := l.guestQueue ++ [q] }
  cases hh : l.guestHolder with
  | none => exact control_attach q l
  | some r => exact Control.ext rfl rfl rfl hh.symm rfl rfl rfl rfl

theorem control_giveUpGuest (q : Patch) (l : Live) : controlOf (giveUpGuest c q l) = (controlOf l).givenUp q := by
  have hhead : (controlOf l).givenUp q = if l.guestHolder = some q then
      match l.guestQueue with
      | [] => { controlOf l with holder := none }
      | r :: rest => { controlOf l with holder := some r, queue := rest }
      else { controlOf l with queue := l.guestQueue.filter (fun r => decide (r ≠ q)) } := rfl
  rw [hhead]
  unfold giveUpGuest
  split
  · cases l.guestQueue with
    | nil => exact control_detach q l
    | cons r rest => exact control_attach r _
  · rfl

include hlaw

theorem attach_fair (q : Patch) (l : Live) : Fair c l (attach c q l) :=
  (setGuests_fair c l (some q) l.guestQueue).trans (fair_of_calm (.of_keyRun hlaw (attach_keyRun q l)))

theorem detach_fair (q : Patch) (l : Live) : Fair c l (detach c q l) :=
  (fair_of_calm (.of_keyRun hlaw (unkeyGuests_run c q l))).trans <|
    (setGuests_fair c _ none _).trans (fair_of_calm (.of_keyRun hlaw (settleKeys_run c _)))

theorem requestGuest_fair (q : Patch) (l : Live) : Fair c l (requestGuest c q l) := by
  unfold requestGuest
  split
  · exact attach_fair hlaw q l
  · exact setGuests_fair c l l.guestHolder _

theorem giveUpGuest_fair (q : Patch) (l : Live) : Fair c l (giveUpGuest c q l) := by
  unfold giveUpGuest
  split
  · split
    · exact detach_fair hlaw q l
    · exact (setGuests_fair c l l.guestHolder _).trans (attach_fair hlaw _ _)
  · exact setGuests_fair c l l.guestHolder _

theorem pauseGuests_calm (q : Patch) (l : Live) : Calm c l (pauseGuests c q l) := .of_keyRun hlaw (pauseGuests_run c q l)

theorem resumeGuests_calm (q : Patch) (l : Live) : Calm c l (resumeGuests c q l) :=
  .of_keyRun hlaw (resumeGuests_run c q l)

omit hlaw

theorem setGen_calm (l : Live) (g : CadenceGen) : Calm c l { l with gen := g } :=
  .of_same (.of_fla rfl rfl rfl rfl rfl rfl rfl) rfl fun _ => rfl

theorem startCadence_calm (l : Live) : Calm c l (startCadence c l) := by
  unfold startCadence
  split
  · exact setGen_calm l _
  · exact .refl c l

theorem stopCadence_calm (l : Live) : Calm c l (stopCadence l) := by
  unfold stopCadence
  split
  · exact .refl c l
  · exact setGen_calm l _

/-! ### Maydays -/

theorem exemptPort_calm (p : Port) (l : Live) : Calm c l (exemptPort c p l) := by
  unfold exemptPort
  split
  · exact setRx_calm c l p rfl
  · exact liftLockout_calm p l

theorem endExemption_calm (p : Port) (l : Live) : Calm c l (endExemption c p l) := by
  unfold endExemption
  split
  · exact setRx_calm c l p rfl
  · exact .refl c l

theorem control_announceMayday (q : Patch) (p : Port) (l : Live) : controlOf (announceMayday c q p l) =
    { controlOf l with lamps := put (controlOf l).lamps p true }.requested q := by
  have hexempt := Calm.eq (exemptPort_calm (c := c) p l)
  have hlast : controlOf (announceMayday c q p l) =
      controlOf (requestGuest c q ((exemptPort c p l).setLamp p true)) := rfl
  rw [hlast, control_requestGuest]
  generalize exemptPort c p l = m at hexempt
  rw [← hexempt]
  rfl

include hlaw in
theorem announceMayday_fair (q : Patch) (p : Port) (l : Live) : Fair c l (announceMayday c q p l) :=
  (fair_of_calm (exemptPort_calm p l)).trans <| (setLamp_fair c p true _).trans <|
    (requestGuest_fair hlaw q _).trans (fair_of_calm (raise_calm _ _ _))

theorem not_frozen_of_alert {l : Live} (h : Governed c l) {q : Patch} (ha : underAlert l q = true) :
    (controlOf l).frozen q = false := by
  rw [Bool.eq_false_iff]
  intro hf
  have hplain := h.ok.plain q hf
  have ha' : (controlOf l).alert q = true := ha
  simp [Control.overridden, ha'] at hplain

theorem not_frozen_of_mayday {l : Live} (h : Governed c l) {q : Patch} {p : Port} (hm : (look l.ovr q).mayday = some p) :
    (controlOf l).frozen q = false := by
  rw [Bool.eq_false_iff]
  intro hf
  have hplain := h.ok.plain q hf
  have hm' : (look (controlOf l).ovr q).mayday = some p := hm
  simp [Control.overridden, hm'] at hplain

/-- Before a mayday begins, a switch that freezes the patch is aborted (R128). -/
theorem maydayBase_governed (hlaw : Lawful c) {l : Live} (h : Governed c l) (q : Patch) :
    Governed c (maydayBase c q l) ∧ (controlOf (maydayBase c q l)).frozen q = false ∧
      (maydayBase c q l).ovr = l.ovr ∧ (maydayBase c q l).active = l.active ∧
      (controlOf (maydayBase c q l)).source = (controlOf l).source := by
  unfold maydayBase
  split
  · have hcontrol := control_abort (c := c) .mayday l
    have hgoverned := abort_governed hlaw .mayday h
    generalize abort c .mayday l = m at hcontrol hgoverned
    refine ⟨hgoverned, ?_, congrArg Control.ovr hcontrol, congrArg Control.active hcontrol, ?_⟩
    · rw [hcontrol]
      rfl
    · rw [hcontrol]
      rfl
  · rename_i hf
    refine ⟨h, ?_, rfl, rfl, rfl⟩
    rw [← h.ok.freezes q]
    exact Bool.not_eq_true _ ▸ hf

theorem source_of_not_alert {l : Live} {q : Patch} (h : underAlert l q = false) : (controlOf l).source q = .receive :=
  source_receive_of_not_alert h

/-- The override state of a patch as its mayday begins outside an alert (R99). -/
def maydayState (l : Live) (q : Patch) (p : Port) : OverrideState :=
  { look l.ovr q with save1 := some (ctxOf l q), mayday := some p }

/-- The context of a patch as its mayday begins (R52, R99). -/
def maydayContext (c : Settings) (l : Live) (q : Patch) (p : Port) : Context :=
  { ctxOf l q with
    mode := .single, restriction := some p
    floor := maydayFloor c (l.setOvr q (maydayState l q p)) q p (ctxOf l q).floor }

theorem beginMayday_eq (q : Patch) (p : Port) (l : Live) : beginMayday c q p l =
    announceMayday c q p (installRestricted c q (maydayContext c (maydayBase c q l) q p)
      ((maydayBase c q l).setOvr q (maydayState (maydayBase c q l) q p))) := rfl

theorem contextLawful_maydayContext {l : Live} {q : Patch} {p : Port} (hs : (ctxOf l q).source = .receive) :
    contextLawful (maydayContext c l q p) = true :=
  contextLawful_iff.2 ⟨decide_eq_true (length_maydayFloor_le ..), .inr rfl, .inl hs⟩

theorem beginMayday_governed (hlaw : Lawful c) {l : Live} (h : Governed c l) {q : Patch} {p : Port}
    (htalk : talkMember c l q p = true) (hm : (look l.ovr q).mayday = none) (ha : underAlert l q = false) :
    Governed c (beginMayday c q p l) := by
  obtain ⟨hbase, hthawed, hovr, hactive, hsource⟩ := maydayBase_governed hlaw h q
  rw [beginMayday_eq]
  generalize maydayBase c q l = m at hbase hthawed hovr hactive hsource
  have hreceive : (ctxOf m q).source = .receive := (congrFun hsource q).trans (source_of_not_alert ha)
  have hsaves : Fair c m (m.setOvr q (maydayState m q p)) :=
    setOvr_fair fun hl => ⟨floorFits_of_contextLawful (hl q).1, (hl q).2.2⟩
  have hinstalled : Fair c (m.setOvr q (maydayState m q p))
      (installRestricted c q (maydayContext c m q p) (m.setOvr q (maydayState m q p))) :=
    installRestricted_fair hlaw (fun _ => contextLawful_maydayContext hreceive)
      fun x hx => .inl (mem_of_mem_maydayFloor hx)
  refine hbase.fair (hsaves.trans (hinstalled.trans (announceMayday_fair hlaw q p _)))
    (k := (controlOf m).maydayBegun q p (maydayState m q p) .receive) ?_ ?_
  · rw [control_announceMayday, control_installRestricted, control_setOvr]
    have hctx : (maydayContext c m q p).source = .receive := hreceive
    rw [hctx]
    rfl
  · have halert : (controlOf m).alert q = false := by
      rw [Control.alert, hsource, source_of_not_alert ha]
      rfl
    obtain ⟨-, hsave2, htimer, -⟩ := overrideLawful_iff.1 (hbase.ok.states q)
    rw [halert] at hsave2 htimer
    refine hbase.ok.maydayBegun ⟨hthawed, overrideLawful_iff.2 ⟨rfl, hsave2, htimer, .inl (hbase.ok.latch_none halert)⟩,
      fun hs => absurd hs (by decide), fun x hx => ?_⟩ (by rw [show (controlOf m).ovr = l.ovr from hovr]; exact hm) rfl
    rcases hx with hx | hx
    · obtain rfl := Option.some.inj hx
      rw [show (controlOf m).active = l.active from hactive]
      exact htalk
    · exact hbase.ok.members q x (.inr hx)

/-- The override state of a patch as a mayday is latched (R97). -/
def latchedState (l : Live) (q : Patch) (p : Port) : OverrideState := { look l.ovr q with latch := some p }

theorem emergencyEvent_governed (hlaw : Lawful c) {l : Live} (h : Governed c l) (p : Port) :
    Governed c (emergencyEvent c p l) := by
  unfold emergencyEvent
  cases hcase : emergencyCase c l p with
  | notMember => exact h
  | hasMayday => exact h
  | latchFull => exact h
  | begins q =>
    obtain ⟨-, htalk, hm, ha⟩ := emergencyCase_begins hcase
    exact beginMayday_governed hlaw h htalk hm ha
  | latched q =>
    obtain ⟨htalk, hm, ha⟩ : talkMember c l q p = true ∧ (look l.ovr q).mayday = none ∧ underAlert l q = true := by
      unfold emergencyCase at hcase
      split at hcase
      · exact absurd hcase (by simp)
      · split at hcase
        · exact absurd hcase (by simp)
        · rename_i htalk
          split at hcase
          · exact absurd hcase (by simp)
          · rename_i hm
            split at hcase
            · rename_i ha
              split at hcase
              · exact absurd hcase (by simp)
              · obtain rfl := EmergencyCase.latched.inj hcase
                exact ⟨by simpa using htalk, by simpa using hm, ha⟩
            · exact absurd hcase (by simp)
    have halert : (controlOf l).source q = .alert := of_decide_eq_true ha
    have hfair : Fair c l ((l.setOvr q (latchedState l q p)).raise (patchSource q) .maydayHeld) :=
      (setOvr_fair (o := latchedState l q p) fun hl => (hl q).2).trans (fair_of_calm (raise_calm _ _ _))
    refine h.fair hfair (k := (controlOf l).override q (latchedState l q p) .alert) ?_ ?_
    · refine Control.ext rfl rfl rfl rfl rfl rfl rfl ?_
      show (controlOf l).source = Function.update (controlOf l).source q .alert
      rw [← halert, Function.update_eq_self]
    · obtain ⟨hsave1, hsave2, htimer, -⟩ := overrideLawful_iff.1 (h.ok.states q)
      rw [Control.alert, halert] at hsave2 htimer
      refine h.ok.override ⟨not_frozen_of_alert h ha, overrideLawful_iff.2 ⟨hsave1, hsave2, htimer, .inr ⟨rfl, hm⟩⟩,
        fun _ => h.ok.valid q (by rw [Control.alert, halert]; rfl), fun x hx => ?_⟩ rfl
      rcases hx with hx | hx
      · exact h.ok.members q x (.inl hx)
      · obtain rfl := Option.some.inj hx
        exact htalk

/-- The context a save gives back as a mayday ends (R102, R104). -/
def rebuiltContext (c : Settings) (l : Live) (q : Patch) : Context :=
  let sv := (look l.ovr q).save1.getD (Context.default (activeRecord c l q).mode)
  { mode := sv.mode, floor := rebuiltFloor c l q sv.mode sv.floor, restriction := none, source := .receive }

/-- The override state of a patch as its mayday ends (R102). -/
def maydayOver (l : Live) (q : Patch) : OverrideState := { look l.ovr q with save1 := none, mayday := none }

theorem endMayday_eq (q : Patch) (p : Port) (l : Live) : endMayday c q p l =
    giveUpGuest c q ((endExemption c p ((install c q (rebuiltContext c l q) l).setOvr q
      (maydayOver (install c q (rebuiltContext c l q) l) q))).setLamp p false) := rfl

theorem endMayday_governed (hlaw : Lawful c) {l : Live} (h : Governed c l) {q : Patch} {p : Port}
    (hm : (look l.ovr q).mayday = some p) (ha : underAlert l q = false) : Governed c (endMayday c q p l) := by
  have hinstalled : Fair c l (install c q (rebuiltContext c l q) l) := install_fair hlaw
    (fun hl => contextLawful_rebuilt (floorFits_save (hl q).2.1 _)) fun x hx => .inl (mem_of_mem_rebuiltFloor hx)
  have hcontrol : controlOf (install c q (rebuiltContext c l q) l) = controlOf l := by
    rw [control_install]
    exact Control.update_source_self (controlOf l) (source_of_not_alert ha)
  rw [endMayday_eq]
  generalize install c q (rebuiltContext c l q) l = m at hinstalled hcontrol
  have hexempt := Calm.eq (endExemption_calm (c := c) p (m.setOvr q (maydayOver m q)))
  have hovr : m.ovr = l.ovr := congrArg Control.ovr hcontrol
  have hfair : Fair c m (giveUpGuest c q ((endExemption c p (m.setOvr q (maydayOver m q))).setLamp p false)) :=
    (setOvr_fair (o := maydayOver m q) fun hl => ⟨rfl, (hl q).2.2⟩).trans <| (fair_of_calm (endExemption_calm p _)).trans <|
      (setLamp_fair c p false _).trans (giveUpGuest_fair hlaw q _)
  refine h.fair (hinstalled.trans hfair) (k := (controlOf l).maydayEnded q p (maydayOver l q) .receive) ?_ ?_
  · rw [control_giveUpGuest]
    generalize endExemption c p (m.setOvr q (maydayOver m q)) = m' at hexempt
    have hlast : controlOf (m'.setLamp p false) = { controlOf m' with lamps := put (controlOf m').lamps p false } := rfl
    rw [hlast, hexempt, control_setOvr, hcontrol, Control.maydayEnded, maydayOver, hovr]
    refine congrArg (fun k : Control => k.givenUp q) (Control.ext rfl rfl rfl rfl rfl rfl rfl ?_)
    show (controlOf l).source = Function.update (controlOf l).source q .receive
    rw [← source_of_not_alert ha, Function.update_eq_self]
  · have halert : (controlOf l).alert q = false := ha
    obtain ⟨-, hsave2, htimer, -⟩ := overrideLawful_iff.1 (h.ok.states q)
    rw [halert] at hsave2 htimer
    have hlatch := h.ok.latch_none halert
    refine h.ok.maydayEnded hlaw.1 ⟨not_frozen_of_mayday h hm, overrideLawful_iff.2 ⟨rfl, hsave2, htimer, .inl hlatch⟩,
      fun hs => absurd hs (by decide), fun x hx => ?_⟩ hm rfl
    rcases hx with hx | hx
    · exact absurd hx (by simp [maydayOver])
    · exact h.ok.members q x (.inr hx)

/-! ### Alerts -/

/-- The override state of a patch as its alert begins (R111). -/
def alertState (l : Live) (q : Patch) (seconds : Nat) : OverrideState :=
  { look l.ovr q with save2 := some (ctxOf l q), timer := alertTimerOf seconds }

theorem beginAlert_eq (seconds : Nat) (l : Live) (q : Patch) : beginAlert c seconds l q =
    startCadence c (pauseGuests c q (flushRing q (install c q { ctxOf l q with source := .alert, floor := [] }
      (l.setOvr q (alertState l q seconds))))) := rfl

theorem alertTail_calm (hlaw : Lawful c) (q : Patch) (l : Live) :
    Calm c l (startCadence c (pauseGuests c q (flushRing q l))) :=
  (flushRing_calm q l).trans ((pauseGuests_calm hlaw q _).trans (startCadence_calm _))

theorem beginAlert_governed (hlaw : Lawful c) {seconds : Nat} {l : Live} (h : Governed c l) {q : Patch}
    (hthawed : (controlOf l).frozen q = false) (hv : (activeRecord c l q).valid = true) :
    Governed c (beginAlert c seconds l q) ∧
      controlOf (beginAlert c seconds l q) = (controlOf l).override q (alertState l q seconds) .alert := by
  have hsaves : Fair c l (l.setOvr q (alertState l q seconds)) :=
    setOvr_fair fun hl => ⟨(hl q).2.1, floorFits_of_contextLawful (hl q).1⟩
  have hinstalled : Fair c (l.setOvr q (alertState l q seconds))
      (install c q { ctxOf l q with source := .alert, floor := [] } (l.setOvr q (alertState l q seconds))) :=
    install_fair hlaw (fun hl => contextLawful_alerted (hl q).1) fun x hx => absurd hx List.not_mem_nil
  have hcontrol := control_install c q { ctxOf l q with source := .alert, floor := [] }
    (l.setOvr q (alertState l q seconds))
  rw [beginAlert_eq]
  generalize install c q { ctxOf l q with source := .alert, floor := [] } (l.setOvr q (alertState l q seconds)) = m
    at hinstalled hcontrol
  have hcalm := alertTail_calm hlaw q m
  have hk : controlOf (startCadence c (pauseGuests c q (flushRing q m))) =
      (controlOf l).override q (alertState l q seconds) .alert := by
    rw [Calm.eq hcalm, hcontrol]
    rfl
  refine ⟨h.fair (hsaves.trans (hinstalled.trans (fair_of_calm hcalm))) hk (h.ok.override ⟨hthawed, ?_, fun _ => hv,
    fun x hx => h.ok.members q x hx⟩ rfl), hk⟩
  obtain ⟨hsave1, -, -, hlatch⟩ := overrideLawful_iff.1 (h.ok.states q)
  refine overrideLawful_iff.2 ⟨hsave1, rfl, ?_, hlatch.imp_right fun hb => ⟨rfl, hb.2⟩⟩
  show (alertTimerOf seconds != .stopped) = true
  unfold alertTimerOf
  split <;> rfl

theorem beginAlerts_governed (hlaw : Lawful c) {seconds : Nat} {qs : List Patch} {l : Live} (h : Governed c l)
    (hv : ∀ q ∈ qs, (activeRecord c l q).valid = true) : Governed c (beginAlerts c seconds qs l) := by
  have hfold : ∀ m : Live, Governed c m → m.active = l.active → (∀ q ∈ qs, (controlOf m).frozen q = false) →
      Governed c (qs.foldl (beginAlert c seconds) m) := by
    intro m hm hactive hthawed
    refine (foldl_keeps_mem (fun m' => Governed c m' ∧ m'.active = l.active ∧ ∀ q ∈ qs, (controlOf m').frozen q = false)
      (beginAlert c seconds) qs (fun m' q hq ⟨hg, ha, ht⟩ => ?_) m ⟨hm, hactive, hthawed⟩).1
    obtain ⟨hnext, hk⟩ := beginAlert_governed hlaw (seconds := seconds) hg (ht q hq)
      (by rw [activeRecord, ha]; exact hv q hq)
    generalize beginAlert c seconds m' q = n at hnext hk
    have hsame : n.active = m'.active := congrArg Control.active hk
    exact ⟨hnext, hsame.trans ha, fun r hr => by rw [hk]; exact ht r hr⟩
  unfold beginAlerts
  dsimp only
  split
  · have hk := control_abort (c := c) .alert l
    refine hfold _ (abort_governed hlaw .alert h) (congrArg Control.active hk) fun q _ => ?_
    rw [hk]
    rfl
  · rename_i hnone
    refine hfold l h rfl fun q hq => ?_
    rw [Bool.not_eq_true, List.any_eq_false] at hnone
    rw [← h.ok.freezes q]
    exact Bool.not_eq_true _ ▸ hnone q hq

/-- The override state of a patch as its alert ends over no latched mayday (R113). -/
def alertOver (l : Live) (q : Patch) : OverrideState := { look l.ovr q with save2 := none, timer := .stopped }

/-- What an alert's save gives back, the default context where there is none. -/
def alertSave (c : Settings) (l : Live) (q : Patch) : Context :=
  (look l.ovr q).save2.getD (Context.default (activeRecord c l q).mode)

/-- The context rebuilt for a mayday latched as the alert ends (R104, R113). -/
def latchedContext (c : Settings) (l : Live) (q : Patch) : Context :=
  { mode := (alertSave c l q).mode
    floor := rebuiltFloor c l q (alertSave c l q).mode (alertSave c l q).floor
    restriction := none, source := .receive }

/-- The override state of a patch as its alert ends over a latched mayday (R113). -/
def latchedOver (c : Settings) (l : Live) (q : Patch) (p : Port) : OverrideState :=
  { look l.ovr q with
    save1 := some (latchedContext c l q), save2 := none, mayday := some p, latch := none, timer := .stopped }

/-- What the end of an alert makes of the live state before guests read again (R113). -/
def alertLifted (c : Settings) (l : Live) (q : Patch) : Live :=
  match (look l.ovr q).latch with
  | none => install c q (restoredContext c (l.setOvr q (alertOver l q)) q (alertSave c l q)) (l.setOvr q (alertOver l q))
  | some p => endAlertLatched c q p (alertSave c l q) l

theorem endAlert_eq (l : Live) (q : Patch) : endAlert c l q =
    (stopCadence (resumeGuests c q (alertLifted c l q))).raise (patchSource q) .alertEnd := rfl

theorem liftedPlain_fair (hlaw : Lawful c) (l : Live) (q : Patch) :
    Fair c l (install c q (restoredContext c (l.setOvr q (alertOver l q)) q (alertSave c l q))
      (l.setOvr q (alertOver l q))) := by
  have hfits : FloorLaw l →
      contextLawful (restoredContext c (l.setOvr q (alertOver l q)) q (alertSave c l q)) = true := fun hl =>
    contextLawful_restored (floorFits_save (hl q).2.2 _)
  have hclaims : ∀ x ∈ (restoredContext c (l.setOvr q (alertOver l q)) q (alertSave c l q)).floor,
      x ∈ claimantsOf (l.setOvr q (alertOver l q)) q ∨ x ∈ (ctxOf (l.setOvr q (alertOver l q)) q).floor :=
    fun x hx => .inl (mem_of_mem_restoredContext hx)
  have hplaced : Fair c l (placeFloor c q (restoredContext c (l.setOvr q (alertOver l q)) q (alertSave c l q))
      (l.setOvr q (alertOver l q))) := by
    refine ⟨(restore_run c q (o := alertOver l q) hfits fun hl => ⟨(hl q).2.1, rfl⟩).floorLaw, fun X hl hc => ?_⟩
    exact placeFloor_claims hlaw hclaims (floorLaw_setOvr hl ⟨(hl q).2.1, rfl⟩)
      (hc.congr (fun _ => ⟨rfl, rfl⟩) (fun _ => rfl) rfl)
  exact hplaced.trans (fair_of_calm (.of_keyRun hlaw (settleKeys_run c _)))

theorem endAlertLatched_fair (hlaw : Lawful c) (l : Live) (q : Patch) (p : Port) :
    Fair c l (endAlertLatched c q p (alertSave c l q) l) := by
  have hsaves : Fair c l (l.setOvr q (latchedOver c l q p)) :=
    setOvr_fair fun hl => ⟨floorFits_rebuiltFloor (floorFits_save (hl q).2.2 _), rfl⟩
  have hinstalled := install_fair hlaw (l := l.setOvr q (latchedOver c l q p)) (q := q)
    (ctx := { mode := .single,
              floor := restoredMaydayFloor c (l.setOvr q (latchedOver c l q p)) q p (latchedContext c l q).floor,
              restriction := some p, source := .receive })
    (fun _ => contextLawful_mayday (length_restoredMaydayFloor_le ..) p)
    fun x hx => .inl (mem_of_mem_restoredMaydayFloor hx)
  exact hsaves.trans (hinstalled.trans (announceMayday_fair hlaw q p _))

theorem control_endAlertLatched (l : Live) (q : Patch) (p : Port) :
    controlOf (endAlertLatched c q p (alertSave c l q) l) =
      (controlOf l).maydayBegun q p (latchedOver c l q p) .receive := by
  unfold endAlertLatched
  dsimp only
  rw [control_announceMayday, control_install, control_setOvr]
  rfl

theorem endAlert_governed (hlaw : Lawful c) {l : Live} (h : Governed c l) {q : Patch}
    (hthawed : (controlOf l).frozen q = false) :
    Governed c (endAlert c l q) ∧ (controlOf (endAlert c l q)).frozen = (controlOf l).frozen := by
  have hlifted : Governed c (alertLifted c l q) ∧ (controlOf (alertLifted c l q)).frozen = (controlOf l).frozen := by
    obtain ⟨hsave1, -, -, hlatch⟩ := overrideLawful_iff.1 (h.ok.states q)
    unfold alertLifted
    cases hl : (look l.ovr q).latch with
    | none =>
      have hk : controlOf (install c q (restoredContext c (l.setOvr q (alertOver l q)) q (alertSave c l q))
          (l.setOvr q (alertOver l q))) = (controlOf l).override q (alertOver l q) .receive := by
        rw [control_install, source_restoredContext, control_setOvr]
        rfl
      refine ⟨h.fair (liftedPlain_fair hlaw l q) hk (h.ok.override ⟨hthawed, ?_, fun hs => absurd hs (by decide),
        fun x hx => h.ok.members q x hx⟩ rfl), by rw [hk]; rfl⟩
      exact overrideLawful_iff.2 ⟨hsave1, rfl, rfl, .inl hl⟩
    | some p =>
      have hk := control_endAlertLatched (c := c) l q p
      have hbefore : (look (controlOf l).ovr q).mayday = none :=
        (hlatch.resolve_left fun hn => absurd (hn.symm.trans hl) (by simp)).2
      refine ⟨h.fair (endAlertLatched_fair hlaw l q p) hk (h.ok.maydayBegun ⟨hthawed,
        overrideLawful_iff.2 ⟨rfl, rfl, rfl, .inl rfl⟩, fun hs => absurd hs (by decide), fun x hx => ?_⟩ hbefore rfl), ?_⟩
      · rcases hx with hx | hx
        · obtain rfl := Option.some.inj hx
          exact h.ok.members q p (.inr hl)
        · exact absurd hx (by simp [latchedOver])
      · have hswitch : (controlOf (endAlertLatched c q p (alertSave c l q) l)).switch = (controlOf l).switch := by
          rw [hk, Control.maydayBegun, Control.requested]
          split <;> rfl
        funext r
        rw [Control.frozen, Control.pending, hswitch, Control.frozen, Control.pending]
  obtain ⟨hgoverned, hfrozen⟩ := hlifted
  rw [endAlert_eq]
  generalize alertLifted c l q = m at hgoverned hfrozen
  have hcalm : Calm c m ((stopCadence (resumeGuests c q m)).raise (patchSource q) .alertEnd) :=
    (resumeGuests_calm hlaw q m).trans ((stopCadence_calm _).trans (raise_calm _ _ _))
  exact ⟨hgoverned.calm hcalm, by rw [Calm.eq hcalm]; exact hfrozen⟩

theorem endAlerts_governed (hlaw : Lawful c) {qs : List Patch} {l : Live} (h : Governed c l)
    (ha : ∀ q ∈ qs, underAlert l q = true) : Governed c (qs.foldl (endAlert c) l) := by
  refine (foldl_keeps_mem (fun m => Governed c m ∧ ∀ q ∈ qs, (controlOf m).frozen q = false) (endAlert c) qs
    (fun m q hq ⟨hg, ht⟩ => ?_) l ⟨h, fun q hq => not_frozen_of_alert h (ha q hq)⟩).1
  obtain ⟨hnext, hfrozen⟩ := endAlert_governed hlaw hg (ht q hq)
  exact ⟨hnext, fun r hr => by rw [hfrozen]; exact ht r hr⟩

/-! ### Switch orders -/

theorem startSwitch_governed (hlaw : Lawful c) {grace : Nat} {l : Live} (h : Governed c l)
    (hnot : switchPending l = false) (hplain : ∀ q ∈ involvedSet c l, overridden l q = false) :
    Governed c (startSwitch c grace l) := by
  unfold startSwitch
  dsimp only
  split
  · exact closeEvent_governed hlaw (swap_governed hlaw .done h hplain)
  · split
    · exact closeEvent_governed hlaw (force_governed hlaw h hplain)
    · exact h.fair (setPending_fair _ _ _) (control_setPending _ _ _) (h.ok.setPending hnot _ hplain)

end

end Sys2Proof.GoverningOverrides

/-! SUPPORT. Edits of the records keep them. -/

namespace Sys2Proof.GoverningEdits

open Sys2Proof.Machine Sys2Proof.Safety Sys2Proof.Claims Sys2Proof.Patches Sys2Proof.PlanLaws Sys2Proof.Deletions
  Sys2Proof.Signalling Sys2Proof.Keying Sys2Proof.LiveSteps Sys2Proof.LiveRuns Sys2Proof.ClaimSteps Sys2Proof.Governance
  Sys2Proof.Governing Sys2Proof.GoverningOverrides

/-! ### Members after an edit -/

theorem talkMember_of_record {c c' : Settings} {l : Live} {q : Patch} (h : activeRecord c' l q = activeRecord c l q)
    (p : Port) : talkMember c' l q p = talkMember c l q p := by
  rw [talkMember, memberIn, h, talkMember, memberIn]

/-- The law of claims under other settings: the ports whose membership may have changed are set aside. -/
theorem claims_edited {X : Patch → Port → Prop} {c c' : Settings} {l : Live} (h : ClaimsBut nobody c l)
    (hmember : ∀ q, ∀ p ∈ claimantsOf l q, X q p ∨ talkMember c l q p = true → X q p ∨ talkMember c' l q p = true) :
    ClaimsBut X c' l := by
  refine ⟨fun q p hp => ?_, fun q p hp => .inr ((h.2 q p hp).resolve_left id)⟩
  obtain ⟨htalk, ha⟩ := (h.1 q p hp).resolve_left id
  exact (hmember q p hp (.inr htalk)).imp_right fun ht => ⟨ht, ha⟩

section

variable {c c' : Settings} {l : Live}

/-- An edit that leaves the ACTIVE records, and with no switch pending, keeps the laws. -/
theorem Governed.of_records (h : Governed c l) (hnot : switchPending l = false)
    (hrecord : ∀ q, activeRecord c' l q = activeRecord c l q) : Governed c' l :=
  ⟨h.ok.edited hnot fun q _ => hrecord q, h.floor, claims_edited h.claims fun q p _ ht => by
    rwa [talkMember_of_record (hrecord q)]⟩

/-- An order that leaves the banks keeps the laws. -/
theorem Governed.of_banks (h : Governed c l) (hbanks : c'.banks = c.banks) : Governed c' l := by
  have hrecord : ∀ q, activeRecord c' l q = activeRecord c l q := fun q => by
    rw [activeRecord, bankRecord, hbanks, activeRecord, bankRecord]
  exact ⟨h.ok.congr hbanks, h.floor, claims_edited h.claims fun q p _ ht => by rwa [talkMember_of_record (hrecord q)]⟩

theorem activeRecord_written (b : Bank) (q r : Patch) (rec : PatchRec) :
    activeRecord (c.setRecord b q rec) l r = if l.active = b ∧ r = q then rec else activeRecord c l r :=
  bankRecord_setRecord ..

theorem standbyBank_ne (a : Bank) : a ≠ standbyBank a := by revert a; decide

/-- A record written in the STANDBY bank leaves the ACTIVE ones. -/
theorem activeRecord_standby (q r : Patch) (rec : PatchRec) :
    activeRecord (c.setRecord (resolveBank l .standby) q rec) l r = activeRecord c l r := by
  rw [activeRecord_written, if_neg fun h => standbyBank_ne l.active h.1]

/-- A patch set to its default: not pending and under no override, it froze not and was in RECEIVE already. -/
theorem control_defaultFloor_plain {d : Settings} {q : Patch} (h : Ok c (controlOf l)) (hnot : switchPending l = false)
    (hplain : overridden l q = false) : controlOf (defaultFloor d l q) = controlOf l := by
  have hfreezing : (controlOf l).freezing q = false := by
    rw [h.freezes q, Control.frozen]
    exact Bool.and_eq_false_iff.2 (.inl hnot)
  have hsource : (controlOf l).source q = .receive := (controlOf l).source_of_plain hplain
  rw [control_defaultFloor, ← hfreezing, ← hsource, Function.update_eq_self, Function.update_eq_self]

theorem overridden_false_of_idle (h : Ok c (controlOf l)) {q : Patch} (hidle : idle c l q = true) :
    overridden l q = false := by
  rcases Bool.or_eq_true _ _ ▸ hidle with hv | hfree
  · exact h.plain_of_invalid (Bool.not_eq_true' _ ▸ hv)
  · rw [Bool.and_eq_true, Bool.not_eq_true'] at hfree
    exact hfree.2

/-- A record of the ACTIVE bank written while its patch is under no override. -/
theorem Ok.written {k : Control} (h : Ok c k) (hnot : k.pending = false) {q : Patch} {rec : PatchRec}
    (hplain : k.overridden q = false) : Ok (c.setRecord k.active q rec) k := by
  refine h.edited hnot fun r hr => ?_
  rw [bankRecord_setRecord, if_neg]
  rintro ⟨-, rfl⟩
  rw [hplain] at hr
  exact absurd hr (by decide)

/-- The ports of one patch. -/
def portsOf (q : Patch) (r : Patch) (_ : Port) : Prop := r = q

theorem claims_written (h : ClaimsBut nobody c l) (q : Patch) (rec : PatchRec) :
    ClaimsBut (portsOf q) (c.setRecord l.active q rec) l := by
  refine claims_edited h fun r p _ ht => ?_
  by_cases hr : r = q
  · exact .inl hr
  · refine ht.imp_right fun ht => ?_
    rwa [talkMember_of_record]
    rw [activeRecord_written, if_neg fun h => hr h.2]

/-- A patch whose record has been written is set to its default. -/
theorem defaultFloor_governed (d : Settings) {q : Patch} (hok : Ok c' (controlOf l))
    (hnot : switchPending l = false) (hplain : overridden l q = false) (hfloor : FloorLaw l)
    (hclaims : ClaimsBut (portsOf q) c' l) : Governed c' (defaultFloor d l q) := by
  refine ⟨?_, (defaultFloor_run c' d l q).floorLaw hfloor, defaultFloor_claims (fun r p hr hx => absurd hx hr) hclaims⟩
  rw [control_defaultFloor_plain hok hnot hplain]
  exact hok

theorem liveDefine_governed (hlaw : Lawful c') (old : PatchRec) {q : Patch} (hok : Ok c' (controlOf l))
    (hnot : switchPending l = false) (hplain : overridden l q = false) (hfloor : FloorLaw l)
    (hclaims : ClaimsBut (portsOf q) c' l) : Governed c' (liveDefine c' q old l) := by
  refine (defaultFloor_governed c' hok hnot hplain hfloor hclaims).calm ?_
  exact (flushRing_calm q _).trans <| (arbitrateFresh_calm hlaw _ q).trans
    (.of_keyRun hlaw (KeyRun.foldl _ (fun l p _ => freeRemoved_run c' old _ l p) _))

/-- The deletion of a record: ports leave FAULT, then the patch is set to its default and its ring flushed. -/
theorem liveDelete_governed (hlaw : Lawful c') (old : PatchRec) {q : Patch} (hok : Ok c' (controlOf l))
    (hnot : switchPending l = false) (hplain : overridden l q = false) (hfloor : FloorLaw l)
    (hclaims : ClaimsBut (portsOf q) c' l) : Governed c' (liveDelete c' q old l) := by
  have hcleared : Calm c' l (clearRemovedFaults old (activeRecord c' l q) l) :=
    .of_keyRun hlaw (clearRemovedFaults_run c' old _ l)
  unfold liveDelete
  dsimp only
  generalize clearRemovedFaults old (activeRecord c' l q) l = m at hcleared
  have hk := Calm.eq hcleared
  have hok' : Ok c' (controlOf m) := hk ▸ hok
  have hnot' : switchPending m = false := (congrArg (fun k : Control => k.pending) hk).trans hnot
  have hplain' : overridden m q = false := (congrArg (fun k : Control => k.overridden q) hk).trans hplain
  exact (defaultFloor_governed c' hok' hnot' hplain' (hcleared.floor hfloor) (hcleared.claims _ hfloor hclaims)).calm
    (flushRing_calm q _)

/-! ### CLEAR BANK -/

/-- A patch of a cleared bank: everything but the claims of the patches still to be cleared holds. -/
structure Clearing (c' : Settings) (qs : List Patch) (l : Live) : Prop where
  ok : Ok c' (controlOf l)
  idle : switchPending l = false
  plain : ∀ q, overridden l q = false
  floor : FloorLaw l
  claims : ClaimsBut (membersOf qs) c' l

theorem Clearing.calm {qs : List Patch} {m : Live} (h : Clearing c' qs l) (hc : Calm c' l m) : Clearing c' qs m := by
  have hk := Calm.eq hc
  exact ⟨hk ▸ h.ok, (congrArg (fun k : Control => k.pending) hk).trans h.idle,
    fun q => (congrArg (fun k : Control => k.overridden q) hk).trans (h.plain q), hc.floor h.floor,
    hc.claims _ h.floor h.claims⟩

theorem Clearing.default {d : Settings} {q : Patch} {qs : List Patch} (h : Clearing c' (q :: qs) l) :
    Clearing c' qs (defaultFloor d l q) := by
  have hk := control_defaultFloor_plain (d := d) h.ok h.idle (h.plain q)
  exact ⟨hk ▸ h.ok, (congrArg (fun k : Control => k.pending) hk).trans h.idle,
    fun r => (congrArg (fun k : Control => k.overridden r) hk).trans (h.plain r), (defaultFloor_run c' d l q).floorLaw h.floor,
    defaultFloor_claims (fun r p hr hx => (List.mem_cons.1 hx).resolve_left hr) h.claims⟩

theorem Clearing.patch (hlaw : Lawful c') (old : Settings) {q : Patch} {qs : List Patch} (h : Clearing c' (q :: qs) l) :
    Clearing c' qs (clearPatch old c' l q) := by
  unfold clearPatch
  split
  · have hcleared : Calm c' l (clearRemovedFaults (activeRecord old l q) (activeRecord c' l q) l) :=
      .of_keyRun hlaw (clearRemovedFaults_run c' _ _ l)
    exact (h.calm hcleared).default.calm (flushRing_calm q _)
  · exact h.default

theorem Clearing.foldl (hlaw : Lawful c') (old : Settings) {qs : List Patch} (h : Clearing c' qs l) :
    Clearing c' [] (qs.foldl (clearPatch old c') l) := by
  induction qs generalizing l with
  | nil => exact h
  | cons q qs ih => exact ih (h.patch hlaw old)

theorem Clearing.governed (h : Clearing c' [] l) : Governed c' l :=
  ⟨h.ok, h.floor, h.claims.mono fun _ _ hq => absurd hq List.not_mem_nil⟩

/-! ### SET MEMBER -/

/-- A record's TALK members are the ports of its lanes with TALK (R2, R4). -/
theorem talkMember_iff {q : Patch} (hone : oneLaneEach (activeRecord c l q)) {p : Port} : talkMember c l q p = true ↔
    (activeRecord c l q).valid = true ∧
      ∃ n m, look (activeRecord c l q).lanes n = some m ∧ m.port = p ∧ m.talk = true := by
  rw [talkMember, memberIn]
  constructor
  · intro h
    split at h
    · rename_i hv
      obtain ⟨m, hm, htalk⟩ := (Option.any_eq_true ..).1 h
      obtain ⟨hp, n, hn⟩ := laneOf_mem hm
      exact ⟨hv, n, m, hn, hp, htalk⟩
    · exact absurd h (by simp)
  · rintro ⟨hv, n, m, hn, rfl, htalk⟩
    rw [if_pos hv, laneOf_of_look hone hn]
    exact htalk

/-- The port of a lane that loses TALK by a change of the lane (R16). -/
def losesTalk (q : Patch) (old new : Option MemberRec) (r : Patch) (p : Port) : Prop :=
  r = q ∧ ∃ m, old = some m ∧ m.port = p ∧ (laneChange old new).removedTalk = true

/-- A lane that holds a port with TALK and does not lose it holds it with TALK after the change. -/
theorem talks_or_loses {m : MemberRec} (new : Option MemberRec) (htalk : m.talk = true) :
    (laneChange (some m) new).removedTalk = true ∨ ∃ m', new = some m' ∧ m'.port = m.port ∧ m'.talk = true := by
  cases new with
  | none => exact .inl htalk
  | some n =>
    unfold laneChange
    dsimp only
    split
    · rename_i hport
      cases hn : n.talk with
      | true => exact .inr ⟨n, rfl, hport.symm, hn⟩
      | false => exact .inl (by simp [htalk])
    · exact .inl htalk

/-- A lane written in the record of a valid patch. -/
def laneWritten (c : Settings) (l : Live) (q : Patch) (n : Lane) (new : Option MemberRec) : PatchRec :=
  { activeRecord c l q with lanes := put (activeRecord c l q).lanes n new }

theorem claims_laneWritten (hlaw : Lawful c) {q : Patch} {n : Lane} {new : Option MemberRec}
    (hlaw' : Lawful (c.setRecord l.active q (laneWritten c l q n new))) (h : ClaimsBut nobody c l) :
    ClaimsBut (losesTalk q (look (activeRecord c l q).lanes n) new) (c.setRecord l.active q (laneWritten c l q n new))
      l := by
  refine claims_edited h fun r p _ ht => ?_
  by_cases hr : r = q
  · subst hr
    refine ht.elim .inl fun htalk => ?_
    have hrecord : activeRecord (c.setRecord l.active r (laneWritten c l r n new)) l r = laneWritten c l r n new := by
      rw [activeRecord_written, if_pos ⟨rfl, rfl⟩]
    obtain ⟨hv, k, m, hk, hp, hm⟩ := (talkMember_iff (hlaw.1.1 l.active r)).1 htalk
    have hkeep : ∀ k' m', look (laneWritten c l r n new).lanes k' = some m' → m'.port = p → m'.talk = true →
        talkMember (c.setRecord l.active r (laneWritten c l r n new)) l r p = true := fun k' m' hk' hp' hm' => by
      refine (talkMember_iff (hlaw'.1.1 l.active r)).2 ⟨?_, k', m', ?_, hp', hm'⟩
      · rw [hrecord]
        exact hv
      · rw [hrecord]
        exact hk'
    by_cases hkn : k = n
    · subst hkn
      rcases talks_or_loses new hm with hlost | ⟨m', hm', hport, htalk'⟩
      · exact .inl ⟨rfl, m, hk, hp, hk ▸ hlost⟩
      · refine .inr (hkeep k m' ?_ (hport.trans hp) htalk')
        rw [laneWritten, look_put_same, hm']
    · refine .inr (hkeep k m ?_ hp hm)
      rw [laneWritten, look_put_ne _ _ _ _ hkn]
      exact hk
  · refine ht.imp_right fun ht => ?_
    rwa [talkMember_of_record]
    rw [activeRecord_written, if_neg fun h => hr h.2]

theorem removedTalk_false_of_fieldsOnly {old new : Option MemberRec} (h : fieldsOnly old new = true) :
    (laneChange old new).removedTalk = false := by
  unfold fieldsOnly at h
  split at h
  · rename_i m n
    simp only [Bool.and_eq_true, decide_eq_true_eq] at h
    obtain ⟨⟨hport, -⟩, htalk⟩ := h
    simp [laneChange, hport, htalk]
  · exact absurd h (by decide)
  · exact absurd h (by decide)

/-- The port that an edit makes a claimant is not one that loses TALK by it. -/
theorem newClaimant_ne {m : MemberRec} {new : Option MemberRec} (hlost : (laneChange (some m) new).removedTalk = true) :
    newClaimant l (laneChange (some m) new) new ≠ some m.port := by
  intro h
  unfold newClaimant at h
  split at h
  · rename_i n
    split at h
    · rename_i hadded
      rw [Option.some.injEq] at h
      rw [Bool.and_eq_true] at hadded
      unfold laneChange at hlost hadded
      simp only [h.symm, if_true, Bool.and_eq_true, Bool.not_eq_true'] at hlost hadded
      rw [hlost.1] at hadded
      exact absurd hadded.1.1 (by decide)
    · exact absurd h (by simp)
  · exact absurd h (by simp)

theorem mem_editClaimants {ch : LaneChange} {old new : Option MemberRec} {q : Patch} {p : Port} :
    p ∈ editClaimants ch old new l q ↔ newClaimant l ch new = some p ∨ p ∈ withoutTalker ch old (claimantsOf l q) := by
  unfold editClaimants
  split
  · rename_i x hx
    rw [mem_addPort, hx, Option.some.injEq]
    exact or_congr_left eq_comm
  · rename_i hx
    simp [hx]

/-- What an edit leaves out of a set of ports is the port that loses TALK by it. -/
theorem mem_withoutTalker_or {q : Patch} {old new : Option MemberRec} {ps : List Port} {p : Port} (hp : p ∈ ps) :
    losesTalk q old new q p ∨ p ∈ withoutTalker (laneChange old new) old ps := by
  unfold withoutTalker
  cases old with
  | none => exact .inr hp
  | some m =>
    dsimp only
    split
    · rename_i hlost
      by_cases hm : m.port = p
      · exact .inl ⟨rfl, m, rfl, hm, hlost⟩
      · exact .inr ((mem_dropPort _ _ _).2 ⟨hp, fun h => hm h.symm⟩)
    · exact .inr hp

theorem not_mem_withoutTalker {q r : Patch} {old new : Option MemberRec} {ps : List Port} {p : Port}
    (h : losesTalk q old new r p) : p ∉ withoutTalker (laneChange old new) old ps := by
  obtain ⟨-, m, rfl, rfl, hlost⟩ := h
  unfold withoutTalker
  dsimp only
  rw [if_pos hlost]
  exact fun hp => ((mem_dropPort _ _ _).1 hp).2 rfl

/-- The new claimant of an edit is an RX_ACTIVE TALK member under the new record. -/
theorem newClaimant_claims {q : Patch} {n : Lane} {old new : Option MemberRec} {p : Port}
    (hone : oneLaneEach (activeRecord c' l q)) (hv : (activeRecord c' l q).valid = true)
    (hlane : look (activeRecord c' l q).lanes n = new) {m : Live} (ha : m.active = l.active)
    (h : newClaimant m (laneChange old new) new = some p) : talkMember c' m q p = true ∧ rxActive m p = true := by
  unfold newClaimant at h
  split at h
  · rename_i x
    split at h
    · rename_i hadded
      obtain rfl := Option.some.inj h
      rw [Bool.and_eq_true] at hadded
      refine ⟨?_, hadded.2⟩
      rw [talkMember_congr ha]
      refine (talkMember_iff hone).2 ⟨hv, n, x, hlane, rfl, ?_⟩
      have ht := hadded.1
      unfold laneChange at ht
      split at ht
      · rename_i heq
        exact absurd heq (by simp)
      · rename_i y heq
        obtain rfl := Option.some.inj heq
        exact ht
      · exact absurd ht Bool.false_ne_true
      · rename_i y z heq
        obtain rfl := Option.some.inj heq
        split at ht
        · rw [Bool.and_eq_true] at ht
          exact ht.2
        · exact ht
    · exact absurd h (by simp)
  · exact absurd h (by simp)

section

variable {q : Patch} {n : Lane} {old new : Option MemberRec} (hlaw : Lawful c')
  (hv : (activeRecord c' l q).valid = true) (hlane : look (activeRecord c' l q).lanes n = new)

theorem editBase_control : SameControl l (editBase c' q old new l) :=
  (SameControl.of_keyRun (withoutListener_run c' q old new l)).trans (setClaimants_control _ q _)

theorem floorLaw_editBase (h : FloorLaw l) : FloorLaw (editBase c' q old new l) :=
  floorLaw_setClaimants _ _ ((Run.of_keyRun (withoutListener_run c' q old new l)).floorLaw h)

include hlaw hv hlane in
theorem editBase_claims (hf : FloorLaw l) (h : ClaimsBut (losesTalk q old new) c' l) :
    ClaimsBut (losesTalk q old new) c' (editBase c' q old new l) ∧
      ∀ p ∈ claimantsOf (editBase c' q old new l) q, ¬ losesTalk q old new q p := by
  have hcalm : Calm c' l (withoutListener c' q old new l) := .of_keyRun hlaw (withoutListener_run c' q old new l)
  have hclaims := hcalm.claims _ hf h
  have hactive := hcalm.control.active
  unfold editBase
  dsimp only
  generalize withoutListener c' q old new l = m at hclaims hactive
  refine ⟨setClaimants_claims (fun p hp => ?_) (fun p hp => ?_) hclaims, fun p hp hlost => ?_⟩
  · rcases mem_editClaimants.1 hp with hnew | hold
    · exact .inr (newClaimant_claims (hlaw.1.1 l.active q) hv hlane hactive hnew)
    · exact hclaims.1 q p (mem_of_mem_withoutTalker hold)
  · exact (mem_withoutTalker_or hp).imp_right fun h => mem_editClaimants.2 (.inr h)
  · rw [claimantsOf_setClaimants, if_pos rfl, mem_editClaimants] at hp
    rcases hp with hnew | hold
    · obtain ⟨-, x, rfl, rfl, hremoved⟩ := hlost
      exact newClaimant_ne hremoved hnew
    · exact not_mem_withoutTalker hlost hold

/-- Once the port that loses TALK stands neither among the claimants nor on the floor, nobody is set aside. -/
theorem claims_of_absent {m : Live} (h : ClaimsBut (losesTalk q old new) c' m)
    (hgone : ∀ p, losesTalk q old new q p → Absent p m q) : ClaimsBut nobody c' m := by
  refine h.drop (fun r p hp hlost => ?_) (fun r p hp hlost => ?_)
  · obtain rfl : r = q := hlost.1
    exact (hgone p hlost).1 hp
  · obtain rfl : r = q := hlost.1
    exact (hgone p hlost).2 hp

include hlaw hv hlane in
theorem editRights_claims (hf : FloorLaw l) (h : ClaimsBut (losesTalk q old new) c' l) :
    ClaimsBut nobody c' (editRights c' q old new l) := by
  obtain ⟨hbase, hout⟩ := editBase_claims hlaw hv hlane hf h
  have hfloor := floorLaw_editBase (c' := c') (q := q) (old := old) (new := new) hf
  have hctx := ctxOf_editBase c' q q old new l
  have hfresh : ∀ p, newClaimant (withoutListener c' q old new l) (laneChange old new) new = some p →
      p ∈ claimantsOf (editBase c' q old new l) q := fun p hp => by
    rw [claimantsOf_editBase]
    exact mem_editClaimants_of_fresh hp
  rw [editRights_eq]
  dsimp only
  generalize editBase c' q old new l = b at *
  generalize withoutListener c' q old new l = t at *
  have hleft : ∀ p, losesTalk q old new q p → p ∉ withoutTalker (laneChange old new) old (ctxOf t q).floor :=
    fun p hp => not_mem_withoutTalker hp
  split
  · refine claims_of_absent ((Calm.of_keyRun hlaw (installFloor_run c' q _ b (fun hc => ?_) fun p hp => ?_)).claims _ hfloor
      hbase) fun p hp => absent_installFloor (fun hc => hout p hc hp) fun hc => ?_
    · refine contextLawful_editedFloor _ (contextLawful_fewer ?_ hc)
      rw [hctx]
      exact length_withoutTalker_le ..
    · rcases mem_of_mem_editedFloor hp with hnew | hclaims | hkept
      · exact .inl (hfresh p hnew)
      · exact .inl hclaims
      · refine .inr ?_
        rw [hctx]
        exact mem_of_mem_withoutTalker hkept
    · rcases mem_of_mem_editedFloor hc with hnew | hclaims | hkept
      · exact hout p (hfresh p hnew) hp
      · exact hout p hclaims hp
      · exact hleft p hp hkept
  · rename_i hsame
    simp only [Bool.or_eq_true, decide_eq_true_eq, not_or, not_not] at hsame
    refine (Calm.of_keyRun hlaw (settleKeys_run c' b)).claims _ hfloor
      (claims_of_absent hbase fun p hp => ⟨fun hc => hout p hc hp, fun hc => ?_⟩)
    rw [hctx, ← hsame.1.1] at hc
    exact hleft p hp hc

theorem editRights_control : SameControl l (editRights c' q old new l) := by
  have hbase := editBase_control (c' := c') (l := l) (q := q) (old := old) (new := new)
  have hfresh : ∀ p, newClaimant (withoutListener c' q old new l) (laneChange old new) new = some p →
      p ∈ claimantsOf (editBase c' q old new l) q := fun p hp => by
    rw [claimantsOf_editBase]
    exact mem_editClaimants_of_fresh hp
  have hctx := ctxOf_editBase c' q q old new l
  rw [editRights_eq]
  dsimp only
  generalize editBase c' q old new l = b at *
  generalize withoutListener c' q old new l = t at *
  split
  · refine hbase.trans (.of_keyRun (installFloor_run c' q _ b (fun hc => ?_) fun p hp => ?_))
    · refine contextLawful_editedFloor _ (contextLawful_fewer ?_ hc)
      rw [hctx]
      exact length_withoutTalker_le ..
    · rcases mem_of_mem_editedFloor hp with hnew | hclaims | hkept
      · exact .inl (hfresh p hnew)
      · exact .inl hclaims
      · refine .inr ?_
        rw [hctx]
        exact mem_of_mem_withoutTalker hkept
  · exact hbase.trans (.of_keyRun (settleKeys_run c' b))

include hlaw hv hlane in
/-- A live edit of a lane of a valid record (R15 to R18). -/
theorem liveEdit_governed (hok : Ok c' (controlOf l)) (hf : FloorLaw l) (h : ClaimsBut (losesTalk q old new) c' l) :
    Governed c' (liveEdit c' q old new l) := by
  unfold liveEdit
  split
  · rename_i hfields
    refine ⟨hok, hf, h.mono fun r p hlost => ?_⟩
    obtain ⟨-, m, rfl, -, hremoved⟩ := hlost
    rw [removedTalk_false_of_fieldsOnly hfields] at hremoved
    exact absurd hremoved (by decide)
  · refine ⟨?_, (editRights_run c' q old new l).floorLaw hf, editRights_claims hlaw hv hlane hf h⟩
    rw [SameControl.eq editRights_control]
    exact hok

end

end

end Sys2Proof.GoverningEdits

/-! SUPPORT. Every step keeps switch, overrides and claims lawful, and no RX_ACTIVE port comes to have its COR ignored. -/

namespace Sys2Proof.GoverningSteps

open Sys2Proof.Machine Sys2Proof.Safety Sys2Proof.Claims Sys2Proof.Patches Sys2Proof.PlanLaws Sys2Proof.ResetOrders
  Sys2Proof.Resets Sys2Proof.Deletions Sys2Proof.Signalling Sys2Proof.Keying Sys2Proof.LiveSteps Sys2Proof.LiveRuns
  Sys2Proof.SoundSteps Sys2Proof.ClaimSteps Sys2Proof.Governance Sys2Proof.Governing Sys2Proof.GoverningOverrides
  Sys2Proof.GoverningEdits

/-! ### Orders -/

/-- An order's result is governed by the settings it leaves, which are lawful. -/
def WellGoverned (r : OrderResult) : Prop := Lawful r.cfg → Governed r.cfg r.live

section

variable {c : Settings} {l : Live} (h : Governed c l)
include h

theorem refuse_governed (st : Status) : WellGoverned (refuse st c l) := fun _ => h

theorem settings_governed {c' : Settings} (hbanks : c'.banks = c.banks) (st : Status) (data : List Byte) :
    WellGoverned { cfg := c', live := l, status := st, data := data } := fun _ => Governed.of_banks h hbanks

theorem protectionDone_governed {c' : Settings} (hbanks : c'.banks = c.banks) (keysw : Bool) :
    WellGoverned (protectionDone c' l keysw) := settings_governed h hbanks _ _

omit h in
theorem event_governed {m : Live} (st : Status) (data : List Byte) (hm : Lawful c → Governed c m) :
    WellGoverned { cfg := c, live := closeEvent c m, status := st, data := data } :=
  fun hlaw => closeEvent_governed hlaw (hm hlaw)

theorem setPort_governed (body : List Byte) : WellGoverned (orderSetPort body c l) := by
  unfold orderSetPort
  repeat' split
  · exact refuse_governed h _
  · rename_i p r _ _
    intro hlaw
    have hports : Governed { c with ports := put c.ports p (storePort p r) } l := Governed.of_banks h rfl
    exact closeEvent_governed hlaw (hports.calm (portRecordChanged_calm hlaw p _ l))
  · exact refuse_governed h _

theorem clearPort_governed (body : List Byte) : WellGoverned (orderClearPort body c l) := by
  unfold orderClearPort
  repeat' split
  · exact refuse_governed h _
  · exact refuse_governed h _
  · exact event_governed _ _ fun hlaw => h.calm (clearPort_calm hlaw _ l)

theorem definePatch_governed (body : List Byte) : WellGoverned (orderDefinePatch body c l) := by
  unfold orderDefinePatch
  split
  · exact refuse_governed h _
  · split
    · rename_i sel q carried _ _ _
      dsimp only
      split
      · exact refuse_governed h _
      · rename_i hr
        simp only [firstRefusal_eq_none_cons] at hr
        obtain ⟨hnot, -, hidle, -⟩ := hr
        intro hlaw
        dsimp only at hlaw ⊢
        cases sel with
        | active =>
          have hplain : overridden l q = false := overridden_false_of_idle h.ok (by simpa [isActiveSel] using hidle)
          rw [if_pos (by rfl)]
          exact closeEvent_governed hlaw (liveDefine_governed hlaw _ (Ok.written h.ok hnot hplain) hnot hplain h.floor
            (claims_written h.claims q _))
        | standby =>
          rw [if_neg (by decide)]
          exact Governed.of_records h hnot fun r => activeRecord_standby q r _
    · exact refuse_governed h _

theorem deletePatch_governed (body : List Byte) : WellGoverned (orderDeletePatch body c l) := by
  unfold orderDeletePatch
  split
  · exact refuse_governed h _
  · split
    · rename_i sel q _ _
      dsimp only
      split
      · exact refuse_governed h _
      · rename_i hr
        simp only [firstRefusal_eq_none_cons] at hr
        obtain ⟨hnot, -, hidle, -⟩ := hr
        intro hlaw
        dsimp only at hlaw ⊢
        cases sel with
        | active =>
          have hplain : overridden l q = false := overridden_false_of_idle h.ok (by simpa [isActiveSel] using hidle)
          have hok : Ok (c.setRecord l.active q PatchRec.cleared) (controlOf l) := Ok.written h.ok hnot hplain
          have hclaims := claims_written h.claims q PatchRec.cleared
          split
          · exact closeEvent_governed hlaw (liveDelete_governed hlaw _ hok hnot hplain h.floor hclaims)
          · rw [if_pos (by rfl)]
            exact defaultFloor_governed _ hok hnot hplain h.floor hclaims
        | standby =>
          rw [if_neg (by simp [isActiveSel]), if_neg (by decide)]
          exact Governed.of_records h hnot fun r => activeRecord_standby q r _
    · exact refuse_governed h _

theorem clearBank_governed (body : List Byte) : WellGoverned (orderClearBank body c l) := by
  unfold orderClearBank
  split
  · exact refuse_governed h _
  · split
    · rename_i sel _
      split
      · exact refuse_governed h _
      · rename_i hr
        simp only [firstRefusal_eq_none_cons] at hr
        obtain ⟨hnot, -, hidle, -⟩ := hr
        intro hlaw
        dsimp only at hlaw ⊢
        cases sel with
        | active =>
          have hall : ∀ q, overridden l q = false := fun q => by
            have hidle' : allPatches.all (idle c l) = true := by simpa [isActiveSel] using hidle
            exact overridden_false_of_idle h.ok (List.all_eq_true.1 hidle' q (mem_allPatches q))
          have hclearing : Clearing (c.clearBank l.active) allPatches l := by
            refine ⟨h.ok.edited hnot fun q hq => ?_, hnot, hall, h.floor,
              claims_edited h.claims fun q p _ _ => .inl (mem_allPatches q)⟩
            rw [show (controlOf l).overridden q = false from hall q] at hq
            exact absurd hq (by decide)
          rw [if_pos (by rfl)]
          exact closeEvent_governed hlaw (hclearing.foldl hlaw c).governed
        | standby =>
          rw [if_neg (by decide)]
          refine Governed.of_records h hnot fun r => ?_
          have hbank : l.active ≠ resolveBank l .standby := standbyBank_ne l.active
          rw [activeRecord, bankRecord_clearBank, if_neg hbank, activeRecord]
    · exact refuse_governed h _

theorem laneEdited_governed (hlaw₀ : Lawful c) (hnot : switchPending l = false) {q : Patch} {n : Lane}
    {new : Option MemberRec} (hplain : overridden l q = false) (hv : (activeRecord c l q).valid = true)
    (hlaw : Lawful (c.setRecord l.active q (laneWritten c l q n new))) :
    Governed (c.setRecord l.active q (laneWritten c l q n new))
      (liveEdit (c.setRecord l.active q (laneWritten c l q n new)) q (look (activeRecord c l q).lanes n) new l) := by
  have hrecord : activeRecord (c.setRecord l.active q (laneWritten c l q n new)) l q = laneWritten c l q n new := by
    rw [activeRecord_written, if_pos ⟨rfl, rfl⟩]
  refine liveEdit_governed (n := n) hlaw ?_ ?_ (Ok.written h.ok hnot hplain) h.floor (claims_laneWritten hlaw₀ hlaw h.claims)
  · rw [hrecord]
    exact hv
  · rw [hrecord]
    exact look_put_same _ _ _

/-- A lane written of an invalid patch, or with what it held, touches no claim. -/
theorem laneDead_governed (hlaw₀ : Lawful c) (hnot : switchPending l = false) {q : Patch} {n : Lane}
    {new : Option MemberRec} (hplain : overridden l q = false)
    (hdead : (activeRecord c l q).valid = false ∨ look (activeRecord c l q).lanes n = new)
    (hlaw : Lawful (c.setRecord l.active q (laneWritten c l q n new))) :
    Governed (c.setRecord l.active q (laneWritten c l q n new)) l := by
  have hkept : ∀ r p, p ∈ claimantsOf l r → losesTalk q (look (activeRecord c l q).lanes n) new r p → nobody r p := by
    rintro r p hclaim ⟨rfl, m, hm, hport, hremoved⟩
    rcases hdead with hv | hsame
    · have htalk := ((h.claims.1 r p hclaim).resolve_left id).1
      rw [talkMember, memberIn, hv] at htalk
      exact absurd htalk (by simp)
    · rw [← hsame, hm] at hremoved
      simp [laneChange] at hremoved
  exact ⟨Ok.written h.ok hnot hplain, h.floor, (claims_laneWritten hlaw₀ hlaw h.claims).drop hkept
    fun r p hp => hkept r p ((h.claims.2 r p hp).resolve_left id)⟩

theorem setMember_governed (hlaw₀ : Lawful c) (body : List Byte) : WellGoverned (orderSetMember body c l) := by
  unfold orderSetMember
  split
  · exact refuse_governed h _
  · split
    · rename_i sel q n carried _ _ _ _
      dsimp only
      split
      · exact refuse_governed h _
      · rename_i hr
        simp only [firstRefusal_eq_none_cons] at hr
        obtain ⟨hnot, -, hover, -⟩ := hr
        intro hlaw
        dsimp only at hlaw ⊢
        cases sel with
        | active =>
          have hplain : overridden l q = false := by simpa [isActiveSel] using hover
          split
          · rename_i hlive
            simp only [Bool.and_eq_true, decide_eq_true_eq] at hlive
            exact closeEvent_governed hlaw (laneEdited_governed h hlaw₀ hnot hplain hlive.1.2 hlaw)
          · rename_i hdead
            refine laneDead_governed h hlaw₀ hnot hplain ?_ hlaw
            rw [Bool.and_eq_true, Bool.and_eq_true, decide_eq_true_eq] at hdead
            by_cases hv : (activeRecord c l q).valid = true
            · exact .inr (by_contra fun hne => hdead ⟨⟨rfl, hv⟩, hne⟩)
            · exact .inl (Bool.not_eq_true _ ▸ hv)
        | standby =>
          rw [if_neg (by simp [isActiveSel])]
          exact Governed.of_records h hnot fun r => activeRecord_standby q r _
    · exact refuse_governed h _

theorem switchPlan_governed (body : List Byte) : WellGoverned (orderSwitchPlan body c l) := by
  unfold orderSwitchPlan
  split
  · exact refuse_governed h _
  · dsimp only
    split
    · exact refuse_governed h _
    · rename_i hr
      simp only [firstRefusal_eq_none_cons] at hr
      obtain ⟨hnot, -, hover, -⟩ := hr
      rw [List.any_eq_false] at hover
      exact fun hlaw => startSwitch_governed hlaw h hnot fun q hq => Bool.not_eq_true _ ▸ hover q hq

theorem abortSwitch_governed (body : List Byte) : WellGoverned (orderAbortSwitch body c l) := by
  unfold orderAbortSwitch
  repeat' split
  · exact refuse_governed h _
  · exact event_governed _ _ fun hlaw => abort_governed hlaw .order h
  · exact refuse_governed h _

theorem declareMayday_governed (body : List Byte) : WellGoverned (orderDeclareMayday body c l) := by
  unfold orderDeclareMayday
  dsimp only
  repeat' split
  · exact refuse_governed h _
  · exact refuse_governed h _
  · exact refuse_governed h _
  · exact event_governed _ _ fun hlaw => emergencyEvent_governed hlaw h _

theorem clearMayday_governed (body : List Byte) : WellGoverned (orderClearMayday body c l) := by
  unfold orderClearMayday
  split
  · exact refuse_governed h _
  · split
    · exact refuse_governed h _
    · split
      · exact refuse_governed h _
      · rename_i ha
        split
        · exact refuse_governed h _
        · rename_i hm
          exact event_governed _ _ fun hlaw => endMayday_governed hlaw h hm (Bool.not_eq_true _ ▸ ha)

theorem soundAlert_governed (body : List Byte) : WellGoverned (orderSoundAlert body c l) := by
  unfold orderSoundAlert
  split
  · exact refuse_governed h _
  · dsimp only
    split
    · exact refuse_governed h _
    · rename_i hv
      rw [Bool.not_eq_true, List.any_eq_false] at hv
      have hvalid : ∀ q ∈ newlyAlerted l (readPatchSet (body.getD 0 0)), (activeRecord c l q).valid = true :=
        fun q hq => by simpa using hv q (List.mem_filter.1 hq).1
      generalize newlyAlerted l (readPatchSet (body.getD 0 0)) = qs at hvalid
      exact event_governed _ _ fun hlaw => beginAlerts_governed hlaw h hvalid

theorem cancelAlert_governed (body : List Byte) : WellGoverned (orderCancelAlert body c l) := by
  unfold orderCancelAlert
  split
  · exact refuse_governed h _
  · have halerted : ∀ q ∈ (readPatchSet (body.getD 0 0)).filter (underAlert l), underAlert l q = true :=
      fun q hq => (List.mem_filter.1 hq).2
    generalize (readPatchSet (body.getD 0 0)).filter (underAlert l) = qs at halerted
    exact event_governed _ _ fun hlaw => endAlerts_governed hlaw h halerted

/-- Every order keeps the laws. -/
theorem OrderOutcome.governed (hlaw : Lawful c) {r : OrderResult} (hr : OrderOutcome c l r) : WellGoverned r := by
  cases hr with
  | refused st => exact refuse_governed h st
  | answered data => exact fun _ => h
  | setPort body => exact setPort_governed h body
  | clearPort body => exact clearPort_governed h body
  | definePatch body => exact definePatch_governed h body
  | setMember body => exact setMember_governed h hlaw body
  | deletePatch body => exact deletePatch_governed h body
  | clearBank body => exact clearBank_governed h body
  | switchPlan body => exact switchPlan_governed h body
  | abortSwitch body => exact abortSwitch_governed h body
  | declareMayday body => exact declareMayday_governed h body
  | clearMayday body => exact clearMayday_governed h body
  | soundAlert body => exact soundAlert_governed h body
  | cancelAlert body => exact cancelAlert_governed h body
  | loadTone body =>
    unfold orderLoadTone
    repeat' split
    · exact refuse_governed h _
    · exact refuse_governed h _
    · exact fun _ => Governed.of_banks h rfl
  | setCadence body =>
    unfold orderSetCadence
    repeat' split
    · exact refuse_governed h _
    · exact refuse_governed h _
    · have hset : Governed { c with cadence := storedCadence body } l := Governed.of_banks h rfl
      exact fun _ => hset.calm (setGen_calm l _)
  | flags tooHigh f keysw =>
    unfold flagOperation
    split
    · exact refuse_governed h _
    · exact protectionDone_governed (c' := { c with flags := mapTable f c.flags }) h rfl keysw
  | lock hard plk keysw =>
    unfold lockOperation
    split
    · exact refuse_governed h _
    · exact protectionDone_governed (c' := { c with plk := plk }) h rfl keysw
  | setReportMask body =>
    unfold orderSetReportMask
    repeat' split
    · exact refuse_governed h _
    · exact refuse_governed h _
    · exact fun _ => Governed.of_banks h rfl
  | clearConditions body =>
    unfold orderClearConditions
    repeat' split
    · exact refuse_governed h _
    · exact refuse_governed h _
    · intro _
      dsimp only
      exact h.calm (.of_same (.of_fla rfl rfl rfl rfl rfl rfl rfl) rfl fun _ => rfl)

end

/-! ### The work of a frame -/

theorem keyUpDone_calm (c : Settings) (l : Live) (p : Port) : Calm c l (keyUpDone l p) := by
  unfold keyUpDone
  dsimp only
  split
  · exact setTx_calm l p _
  · exact .refl c l

theorem enterHangNow_calm (c d : Settings) (l : Live) (p : Port) : Calm c l (enterHangNow d l p) := by
  unfold enterHangNow
  dsimp only
  split
  · exact setTx_calm l p _
  · exact .refl c l

theorem raiseIf_calm (c : Settings) (b : Bool) (src : Source) (e : Cond) (l : Live) : Calm c l (raiseIf b src e l) := by
  unfold raiseIf
  split
  · exact raise_calm l src e
  · exact .refl c l

theorem servePort_calm (c : Settings) (l : Live) (p : Port) : Calm c l (servePort c l p) := by
  unfold servePort
  dsimp only
  split
  · split
    · split
      · exact (setTx_calm l p _).trans (raiseIf_calm c _ _ _ _)
      · exact setTx_calm l p _
    · exact setTx_calm l p _
  · exact setTx_calm l p _

theorem dropOldest_calm (c : Settings) (q : Patch) (l : Live) (p : Port) : Calm c l (dropOldest q l p) := by
  rcases dropOldest_cases q l p with ⟨h, -⟩ | ⟨r, -, -, -, -, h | h⟩ <;> rw [h]
  · exact .refl c l
  · exact setTx_calm l p _
  · exact (setTx_calm l p _).trans (raise_calm _ _ _)

theorem setRing_calm (c : Settings) (l : Live) (q : Patch) (r : Ring) : Calm c l (l.setRing q r) :=
  .of_same (.of_fla rfl rfl rfl rfl rfl rfl rfl) rfl fun _ => rfl

theorem appendRing_calm (c : Settings) (received : Vector Sample 18) (alert : Sample × Bool) (l : Live) (q : Patch) :
    Calm c l (appendRing c received alert l q) := by
  unfold appendRing
  dsimp only
  split
  · exact (Calm.foldl allPorts (fun l p _ => dropOldest_calm c q l p) l).trans
      ((setRing_calm c _ q _).trans (raiseIf_calm c _ _ _ _))
  · exact .refl c l

theorem ringWork_calm (c : Settings) (received : Vector Sample 18) (l : Live) : Calm c l (ringWork c received l) := by
  unfold ringWork
  dsimp only
  exact (Calm.foldl allPorts (fun l p _ => keyUpDone_calm c l p) l).trans <|
    (Calm.foldl allPorts (fun l p _ => servePort_calm c l p) _).trans <|
    (Calm.foldl allPatches (fun l q _ => appendRing_calm c received _ l q) _).trans <|
    (setGen_calm _ _).trans (recordRaised_calm c _)

theorem tickLive_governed {c : Settings} (hdi : Vector Byte 45) {l : Live} (h : Governed c l) :
    Governed c (tickLive c hdi l) := by
  obtain ⟨hfla, -, hactive, hlamps, hholder, hqueue, -⟩ := tickLive_rest c hdi l
  obtain ⟨-, hrx, -, hswitch⟩ := tickLive_entries c hdi l
  have hovr : ∀ q, look (tickLive c hdi l).ovr q = { look l.ovr q with timer := (look l.ovr q).timer.countDown } :=
    fun q => look_mapTable _ l.ovr q
  rw [← countDown_eq] at hswitch
  generalize tickLive c hdi l = m at *
  have hctx : ∀ q, ctxOf m q = ctxOf l q := fun q => by rw [ctxOf, hfla, ctxOf]
  refine ⟨h.ok.ticked hactive hovr hlamps hholder hqueue hswitch ?_ ?_, fun q => ?_, h.claims.congr (fun q => ?_)
    (fun p => ?_) hactive⟩
  · exact funext fun q => by show (look m.fla q).freezing = _; rw [hfla]; rfl
  · exact funext fun q => by show (ctxOf m q).source = _; rw [hctx]; rfl
  · rw [hctx, hovr]
    exact h.floor q
  · rw [claimantsOf, hctx, hfla]
    exact ⟨rfl, rfl⟩
  · rw [hrx]
    rfl

/-! ### Moves and steps -/

theorem governed_fresh (c : Settings) (a : Bank) (mode : Patch → Mode) : Governed c (Live.fresh a mode) :=
  ⟨ok_iff.2 ⟨switchLaw_fresh a mode, pendingLaw_fresh c a mode, overrideLaw_fresh c a mode⟩, floorLaw_fresh a mode,
    claimLaw_iff.1 (claimLaw_fresh c a mode)⟩

theorem withRestart_calm (c : Settings) (l : Live) : Calm c l l.withRestart :=
  .of_same (.of_fla rfl rfl rfl rfl rfl rfl rfl) rfl fun _ => rfl

theorem reportTaken_calm (c : Settings) (src : Source) (rest : List Source) (l : Live) :
    Calm c l (reportTaken src rest l) := .of_same (.of_fla rfl rfl rfl rfl rfl rfl rfl) rfl fun _ => rfl

theorem putGraceFirst_governed {c : Settings} {l : Live} (h : Governed c l) : Governed c (putGraceFirst l) := by
  unfold putGraceFirst
  split
  · rename_i hp
    rw [Bool.and_eq_true] at hp
    refine ⟨⟨h.ok.freezes, h.ok.plain, fun hn => ?_, h.ok.involved, h.ok.states, h.ok.valid, h.ok.members, h.ok.lamps,
      h.ok.guests, h.ok.nodup, h.ok.waits, h.ok.free⟩, h.floor, h.claims⟩
    have hpending : switchPending l = false := hn
    rw [hp.1] at hpending
    exact absurd hpending (by decide)
  · exact h

/-- Lawful settings and a governed live state, and every move keeps both. -/
def Ruled (c : Settings) (l : Live) : Prop := Lawful c ∧ Governed c l

theorem LiveMove.keeps_ruled {a b : Settings × Live} (hm : LiveMove a b) (h : Ruled a.1 a.2) : Ruled b.1 b.2 := by
  refine ⟨LiveMove.keeps_lawful hm h.1, ?_⟩
  obtain ⟨hlaw, hg⟩ := h
  cases hm with
  | enterHang c l p =>
    dsimp only
    exact hg.calm (enterHangNow_calm c c l p)
  | cadenceEnd c l _ =>
    dsimp only
    exact Governed.calm (l' := { l with gen := endCadenceCount c.cadence l.gen }) hg (setGen_calm l _)
  | ringWork c l received =>
    dsimp only
    exact hg.calm (ringWork_calm c received l)
  | tick c l hdi =>
    dsimp only
    exact tickLive_governed hdi hg
  | corRise c l p =>
    dsimp only
    exact closeEvent_governed hlaw (hg.calm (corRise_calm hlaw p l))
  | corFall c l p =>
    dsimp only
    exact closeEvent_governed hlaw (hg.calm (corFall_calm hlaw p l))
  | emergencyRise c l p =>
    dsimp only
    have hsettled : Calm c l ((l.setRx p { look l.rx p with emg := Debounce.settled true }).raise (portSource p) .emerg) :=
      (setRx_calm c l p (x := { look l.rx p with emg := Debounce.settled true }) rfl).trans (raise_calm _ _ _)
    exact closeEvent_governed hlaw
      (emergencyEvent_governed hlaw ((hg.calm hsettled).calm (emgRise_calm hlaw p _)) p)
  | emgFall c l p =>
    dsimp only
    exact closeEvent_governed hlaw (hg.calm (emgFall_calm p l))
  | talkTimeUp c l p =>
    dsimp only
    exact closeEvent_governed hlaw (hg.calm (talkTimeUp_calm hlaw p l))
  | keyUpDone c l p =>
    dsimp only
    exact closeEvent_governed hlaw (hg.calm (keyUpDone_calm c l p))
  | hangUp c l p =>
    dsimp only
    exact closeEvent_governed hlaw (hg.calm (hangUp_calm hlaw p l))
  | confirmUp c l p =>
    dsimp only
    exact closeEvent_governed hlaw (hg.calm (confirmUp_calm hlaw p l))
  | alertTimer c l q ha =>
    dsimp only
    exact closeEvent_governed hlaw (endAlert_governed hlaw hg (not_frozen_of_alert hg ha)).1
  | grace c l hp =>
    dsimp only
    have hinv : l.switch.involved = involvedSet c l := hg.ok.involved hp
    have hforced := force_governed hlaw hg fun q hq => hg.ok.plain q (by
      rw [Control.frozen, Bool.and_eq_true]
      exact ⟨hp, List.contains_iff_mem.2 (hinv ▸ hq)⟩)
    rw [← hinv] at hforced
    exact closeEvent_governed hlaw hforced
  | graceFirst c l =>
    dsimp only
    exact putGraceFirst_governed hg
  | order c l r hr =>
    dsimp only
    exact OrderOutcome.governed hg hlaw hr (OrderOutcome.keeps_lawful hr hlaw)
  | report c l src rest _ =>
    dsimp only
    exact hg.calm (reportTaken_calm c src rest l)
  | resetOrder c l =>
    dsimp only
    exact (governed_fresh c l.active _).calm (withRestart_calm c _)
  | powerOn c l =>
    dsimp only
    exact governed_fresh _ _ _
  | rst c l =>
    dsimp only
    exact governed_fresh _ _ _
  | restart c l =>
    dsimp only
    exact hg.calm (withRestart_calm c l)

theorem step_keeps_ruled {s t : State} (h : Ruled s.cfg s.live) (hs : step s = .next t) : Ruled t.cfg t.live := by
  unfold step at hs
  split at hs
  · injection hs with e
    exact e ▸ h
  · exact LiveRun.keeps (P := Ruled) (fun _ _ => LiveMove.keeps_ruled) (exec_run _ _ _ hs) h

/-! ### No port RX_ACTIVE with its COR ignored -/

theorem heeds_refl (c : Settings) (l : Live) : Heeds c l l := fun _ hi ha => ⟨hi, ha⟩

theorem heeds_trans {c : Settings} {a b d : Live} (h : Heeds c a b) (k : Heeds c b d) : Heeds c a d := fun p hi ha =>
  h p (k p hi ha).1 (k p hi ha).2

theorem heeds_foldl {α : Type} {c : Settings} {f : Live → α → Live} (hf : ∀ l x, Heeds c l (f l x)) (xs : List α)
    (l : Live) : Heeds c l (xs.foldl f l) :=
  foldl_keeps (fun m => Heeds c l m) f (fun m x h => heeds_trans h (hf m x)) xs l (heeds_refl c l)

/-- A transmit machine replaced by one that is keyed as it was. -/
theorem setTx_heeds (c : Settings) (l : Live) (p : Port) {t : TxPort} (h : keyed t = keyed (look l.tx p)) :
    Heeds c l (l.setTx p t) := by
  refine .of_same (fun r => ?_) fun _ => rfl
  rw [Live.setTx_tx, look_put]
  split
  · rename_i hr
    rw [hr, h]
  · rfl

theorem raise_heeds (c : Settings) (l : Live) (src : Source) (e : Cond) : Heeds c l (l.raise src e) :=
  .of_same (fun _ => rfl) fun _ => rfl

theorem raiseIf_heeds (c : Settings) (b : Bool) (src : Source) (e : Cond) (l : Live) : Heeds c l (raiseIf b src e l) := by
  unfold raiseIf
  split
  · exact raise_heeds c l src e
  · exact heeds_refl c l

theorem keyUpDone_heeds (c : Settings) (l : Live) (p : Port) : Heeds c l (keyUpDone l p) := by
  unfold keyUpDone
  dsimp only
  split
  · rename_i h
    simp only [Bool.and_eq_true, decide_eq_true_eq] at h
    exact setTx_heeds c l p (by simp [keyed, h.1])
  · exact heeds_refl c l

theorem enterHangNow_heeds (c : Settings) (l : Live) (p : Port) : Heeds c l (enterHangNow c l p) := by
  unfold enterHangNow
  dsimp only
  split
  · rename_i h
    simp only [Bool.and_eq_true, decide_eq_true_eq] at h
    exact setTx_heeds c l p (by simp [keyed, h.1])
  · exact heeds_refl c l

theorem takeSample_heeds (c : Settings) (l : Live) (p : Port) (r : Reader) : Heeds c l (takeSample c l p r) := by
  unfold takeSample
  dsimp only
  refine heeds_trans (setTx_heeds c l p ?_) (raiseIf_heeds c _ _ _ _)
  rfl

theorem servePort_heeds (c : Settings) (l : Live) (p : Port) : Heeds c l (servePort c l p) := by
  unfold servePort
  dsimp only
  split
  · split
    · split
      · rename_i r _ _
        exact takeSample_heeds c l p r
      · exact setTx_heeds c l p rfl
    · exact setTx_heeds c l p rfl
  · exact setTx_heeds c l p rfl

theorem dropOldest_heeds (c : Settings) (q : Patch) (l : Live) (p : Port) : Heeds c l (dropOldest q l p) := by
  rcases dropOldest_cases q l p with ⟨h, -⟩ | ⟨r, -, -, -, -, h | h⟩ <;> rw [h]
  · exact heeds_refl c l
  · exact setTx_heeds c l p rfl
  · refine heeds_trans (setTx_heeds c l p ?_) (raise_heeds c _ _ _)
    rfl

theorem setRing_heeds (c : Settings) (l : Live) (q : Patch) (r : Ring) : Heeds c l (l.setRing q r) :=
  .of_same (fun _ => rfl) fun _ => rfl

theorem appendRing_heeds (c : Settings) (received : Vector Sample 18) (alert : Sample × Bool) (l : Live) (q : Patch) :
    Heeds c l (appendRing c received alert l q) := by
  unfold appendRing
  dsimp only
  split
  · exact heeds_trans (heeds_foldl (dropOldest_heeds c q) allPorts l)
      (heeds_trans (setRing_heeds c _ q _) (raiseIf_heeds c _ _ _ _))
  · exact heeds_refl c l

theorem ringWork_heeds (c : Settings) (received : Vector Sample 18) (l : Live) : Heeds c l (ringWork c received l) := by
  unfold ringWork
  dsimp only
  exact heeds_trans (heeds_foldl (keyUpDone_heeds c) allPorts l) <|
    heeds_trans (heeds_foldl (servePort_heeds c) allPorts _) <|
    heeds_trans (heeds_foldl (appendRing_heeds c received _) allPatches _) <|
    heeds_trans (setGen_run c _ _).heeds (recordRaised_run c c _).heeds

theorem tickLive_heeds (c : Settings) (hdi : Vector Byte 45) (l : Live) : Heeds c l (tickLive c hdi l) := by
  obtain ⟨htx, hrx, -⟩ := tickLive_entries c hdi l
  refine .of_same (fun p => ?_) fun p => ?_
  · rw [htx]
    rfl
  · rw [hrx]
    rfl

theorem FrameStep.heeds {c : Settings} {l l' : Live} (h : FrameStep c l l') : Heeds c l l' := by
  cases h with
  | none => exact heeds_refl c l
  | enterHang p => exact enterHangNow_heeds c l p
  | ringWork received => exact ringWork_heeds c received l
  | tick hdi => exact tickLive_heeds c hdi l
  | keyUpDone p => exact keyUpDone_heeds c l p

theorem ignoredLaw_of_heeds {c c' : Settings} {l l' : Live} (h : Heeds c' l l')
    (hports : ∀ p, corIgnored c' l p = true → rxActive l p = true → corIgnored c l p = true) (hl : IgnoredLaw c l) :
    IgnoredLaw c' l' := by
  intro p hi
  rw [Bool.eq_false_iff]
  intro ha
  obtain ⟨hi', ha'⟩ := h p hi ha
  rw [hl p (hports p hi' ha')] at ha'
  exact absurd ha' (by decide)

/-- Only SET PORT changes the records of the ports. -/
theorem OrderOutcome.ports {c : Settings} {l : Live} {r : OrderResult} (hr : OrderOutcome c l r) :
    r.cfg.ports = c.ports ∨ ∃ body, r = orderSetPort body c l := by
  cases hr with
  | setPort body => exact .inr ⟨body, rfl⟩
  | refused st => exact .inl rfl
  | answered data => exact .inl rfl
  | clearPort body => unfold orderClearPort; repeat' split
                      all_goals exact .inl rfl
  | definePatch body => unfold orderDefinePatch; dsimp only; repeat' split
                        all_goals exact .inl rfl
  | setMember body => unfold orderSetMember; dsimp only; repeat' split
                      all_goals exact .inl rfl
  | deletePatch body => unfold orderDeletePatch; dsimp only; repeat' split
                        all_goals exact .inl rfl
  | clearBank body => unfold orderClearBank; dsimp only; repeat' split
                      all_goals exact .inl rfl
  | switchPlan body => unfold orderSwitchPlan; dsimp only; repeat' split
                       all_goals exact .inl rfl
  | abortSwitch body => unfold orderAbortSwitch; repeat' split
                        all_goals exact .inl rfl
  | declareMayday body => unfold orderDeclareMayday; dsimp only; repeat' split
                          all_goals exact .inl rfl
  | clearMayday body => unfold orderClearMayday; repeat' split
                        all_goals exact .inl rfl
  | soundAlert body => unfold orderSoundAlert; dsimp only; repeat' split
                       all_goals exact .inl rfl
  | cancelAlert body => unfold orderCancelAlert; repeat' split
                        all_goals exact .inl rfl
  | loadTone body => unfold orderLoadTone; repeat' split
                     all_goals exact .inl rfl
  | setCadence body => unfold orderSetCadence; repeat' split
                       all_goals exact .inl rfl
  | flags tooHigh f keysw => unfold flagOperation protectionDone; split
                             all_goals exact .inl rfl
  | lock hard plk keysw => unfold lockOperation protectionDone; split
                           all_goals exact .inl rfl
  | setReportMask body => unfold orderSetReportMask; repeat' split
                          all_goals exact .inl rfl
  | clearConditions body => unfold orderClearConditions; repeat' split
                            all_goals exact .inl rfl

theorem not_rxActive_release {c : Settings} {l : Live} {p : Port} (h : rxActive l p = false) :
    rxActive (release c p l) p = false := by
  refine foldl_keeps (fun m => rxActive m p = false) (releaseIn c p) (fun m q hm => ?_) allPatches l h
  rcases releaseIn_cases c p m q with ⟨-, heq⟩ | ⟨-, -, hrun⟩
  · rwa [heq]
  · exact not_rxActive_of_keyRun (l := m.setClaimants q _) hm hrun

/-- A port whose COR begins to be ignored is not RX_ACTIVE thereafter (R34). -/
theorem not_rxActive_beginIgnoring (c : Settings) (p : Port) (l : Live) : rxActive (beginIgnoring c p l) p = false := by
  unfold beginIgnoring
  dsimp only
  split
  · refine not_rxActive_release ?_
    rw [rxActive, Live.setRx_rx, look_put_same]
    rfl
  · rename_i h
    exact Bool.not_eq_true _ ▸ h

theorem portRecordChanged_ignored {c c' : Settings} {l : Live} {p : Port}
    (hports : ∀ r, r ≠ p → look c'.ports r = look c.ports r) (hl : IgnoredLaw c l) :
    IgnoredLaw c' (portRecordChanged c' p (corIgnored c l p) l) := by
  have hrun := (portRecordChanged_run c' p (corIgnored c l p) l).heeds
  by_cases hwas : corIgnored c' l p = true → corIgnored c l p = true
  · refine ignoredLaw_of_heeds hrun (fun r hi _ => ?_) hl
    by_cases hr : r = p
    · exact hr ▸ hwas (hr ▸ hi)
    · rwa [corIgnored, hports r hr] at hi
  · rw [Classical.not_imp, Bool.not_eq_true] at hwas
    obtain ⟨hnow, hwas⟩ := hwas
    have hbegins : portRecordChanged c' p (corIgnored c l p) l = beginIgnoring c' p l := by
      rw [portRecordChanged, if_pos hnow, hwas, if_neg (by decide)]
    intro r hi
    by_cases hr : r = p
    · rw [hr, hbegins]
      exact not_rxActive_beginIgnoring c' p l
    · rw [Bool.eq_false_iff]
      intro ha
      obtain ⟨hi', ha'⟩ := hrun r hi ha
      rw [corIgnored, hports r hr] at hi'
      rw [hl r hi'] at ha'
      exact absurd ha' (by decide)

theorem setPort_ignored (body : List Byte) {c : Settings} {l : Live} (hl : IgnoredLaw c l) :
    IgnoredLaw (orderSetPort body c l).cfg (orderSetPort body c l).live := by
  unfold orderSetPort
  repeat' split
  · exact hl
  · rename_i p r _ _
    have hchanged : IgnoredLaw { c with ports := put c.ports p (storePort p r) }
        (portRecordChanged { c with ports := put c.ports p (storePort p r) } p (corIgnored c l p) l) :=
      portRecordChanged_ignored (fun x hx => look_put_ne _ _ _ _ hx) hl
    exact ignoredLaw_of_heeds (closeEvent_run _ _).heeds (fun _ hi _ => hi) hchanged
  · exact hl

theorem Effect.ignored {c c' : Settings} {l l' : Live} (h : Effect c c' l l') (hl : IgnoredLaw c l) :
    IgnoredLaw c' l' := by
  cases h with
  | work hc hframe hrun =>
    subst hc
    exact ignoredLaw_of_heeds (heeds_trans (FrameStep.heeds hframe) hrun.heeds) (fun _ hi _ => hi) hl
  | order hr hc =>
    subst hc
    rcases OrderOutcome.ports hr with hports | ⟨body, rfl⟩
    · refine ignoredLaw_of_heeds (OrderOutcome.run hr).heeds (fun p hi _ => ?_) hl
      rwa [corIgnored, hports] at hi
    · exact setPort_ignored body hl
  | reset a mode hrun =>
    exact ignoredLaw_of_heeds hrun.heeds (fun _ hi _ => hi) (ignoredLaw_fresh c' a mode)

theorem step_keeps_ignored {s t : State} (h : IgnoredLaw s.cfg s.live) (hs : step s = .next t) :
    IgnoredLaw t.cfg t.live := by
  unfold step at hs
  split at hs
  · injection hs with e
    exact e ▸ h
  · exact LiveRun.keeps (P := IgnoredLaw) (fun _ _ hm => Effect.ignored (LiveMove.effect hm)) (exec_run _ _ _ hs) h

/-- Settles O59: each move keeps the laws; a hand-on keeps claims because a port keys only off its own patch's floor. -/
theorem stepsKeepSwitchOverridesAndClaims : Obligations.StepsKeepSwitchOverridesAndClaims := by
  refine ⟨fun s t h hs => step_keeps_ignored h hs, ?_⟩
  intro s t hplan hsettings hfloor hswitch hpending hoverride hclaim hs
  have hruled : Ruled s.cfg s.live :=
    ⟨⟨hplan, hsettings⟩, ok_iff.2 ⟨hswitch, hpending, hoverride⟩, hfloor, claimLaw_iff.1 hclaim⟩
  obtain ⟨-, hok, -, hclaims⟩ := step_keeps_ruled hruled hs
  obtain ⟨hswitch', hpending', hoverride'⟩ := ok_iff.1 hok
  exact ⟨hswitch', hpending', hoverride', claimLaw_iff.2 hclaims⟩

end Sys2Proof.GoverningSteps

/-! SUPPORT. How one transmit machine follows floors and plan, and all of them; the selection made again; a floor put in place. -/

namespace Sys2Proof.Follow

open Sys2Proof.Machine Sys2Proof.Safety Sys2Proof.Claims Sys2Proof.ResetOrders Sys2Proof.Signalling Sys2Proof.Keying
  Sys2Proof.LiveRuns Sys2Proof.ClaimSteps

/-! ### What a transmit machine looks at as it follows -/

theorem activeRecord_congr {l l' : Live} (h : l'.active = l.active) (c : Settings) (q : Patch) :
    activeRecord c l' q = activeRecord c l q := by
  rw [activeRecord, h, activeRecord]

/-- The same ACTIVE records, guest holder, rings and contexts: all that a transmit machine follows (R67, R70, R72). -/
structure SameView (c : Settings) (l l' : Live) : Prop where
  records : ∀ q, activeRecord c l' q = activeRecord c l q
  holder : l'.guestHolder = l.guestHolder
  rings : l'.rings = l.rings
  ctx : ∀ q, ctxOf l' q = ctxOf l q

theorem SameView.refl (c : Settings) (l : Live) : SameView c l l := ⟨fun _ => rfl, rfl, rfl, fun _ => rfl⟩

theorem SameView.trans {c : Settings} {a b d : Live} (h : SameView c a b) (k : SameView c b d) : SameView c a d :=
  ⟨fun q => (k.records q).trans (h.records q), k.holder.trans h.holder, k.rings.trans h.rings,
    fun q => (k.ctx q).trans (h.ctx q)⟩

theorem SameView.of_fla {c : Settings} {l l' : Live} (hactive : l'.active = l.active)
    (hholder : l'.guestHolder = l.guestHolder) (hrings : l'.rings = l.rings) (hfla : l'.fla = l.fla) :
    SameView c l l' :=
  ⟨activeRecord_congr hactive c, hholder, hrings, fun q => by rw [ctxOf, hfla, ctxOf]⟩

theorem SameView.of_beyondFloors {c : Settings} {l l' : Live} (h : l'.beyondFloors = l.beyondFloors)
    (hctx : ∀ q, ctxOf l' q = ctxOf l q) : SameView c l l' := by
  obtain ⟨hactive, hrings, -, -, hholder, -⟩ := beyondFloors_fields h
  exact ⟨activeRecord_congr hactive c, hholder, hrings, hctx⟩

theorem memberIn_congr {c : Settings} {l l' : Live} {q : Patch} (h : activeRecord c l' q = activeRecord c l q)
    (p : Port) : memberIn c l' q p = memberIn c l q p := by
  rw [memberIn, h, memberIn]

/-- Entitlement to a ring is read from the record, the guest holder and the context of that patch alone. -/
theorem entitled_congr {c : Settings} {l l' : Live} {q : Patch} (hrecord : activeRecord c l' q = activeRecord c l q)
    (hholder : l'.guestHolder = l.guestHolder) (hctx : ctxOf l' q = ctxOf l q) (p : Port) :
    entitled c l' p q = entitled c l p q := by
  simp only [entitled, hctx, memberIn_congr hrecord, onFloor, hholder, guestOf, hrecord, listenMember]

theorem writerActive_congr {l l' : Live} {q : Patch} (h : ctxOf l' q = ctxOf l q) :
    writerActive l' q = writerActive l q := by
  rw [writerActive, h, writerActive]

theorem keyUpFor_congr {c : Settings} {l l' : Live} {q : Patch} (hrecord : activeRecord c l' q = activeRecord c l q)
    (hholder : l'.guestHolder = l.guestHolder) (p : Port) : keyUpFor c l' p q = keyUpFor c l p q := by
  rw [keyUpFor, guestOf, hholder, memberIn_congr hrecord, keyUpFor, guestOf]

theorem keyedTx_congr {l l' : Live} {q : Patch} (h : (look l'.rings q).head = (look l.rings q).head) (c : Settings)
    (p : Port) (ms : Nat) : keyedTx c l' p q ms = keyedTx c l p q ms := by
  rw [keyedTx, h, keyedTx]

/-- How a reader follows is read from the record, the guest holder, the head and the context of the patch it reads. -/
theorem followed_congr {c : Settings} {l l' : Live} {r : Reader}
    (hrecord : activeRecord c l' r.ring = activeRecord c l r.ring) (hholder : l'.guestHolder = l.guestHolder)
    (hhead : (look l'.rings r.ring).head = (look l.rings r.ring).head) (hctx : ctxOf l' r.ring = ctxOf l r.ring)
    (p : Port) (t : TxPort) : followed c l' p r t = followed c l p r t := by
  rw [followed, entitled_congr hrecord hholder hctx, writerActive_congr hctx, hhead, followed]

section

variable {c : Settings} {l l' : Live} (h : SameView c l l')
include h

theorem SameView.entitled (p : Port) (q : Patch) : entitled c l' p q = entitled c l p q :=
  entitled_congr (h.records q) h.holder (h.ctx q) p

theorem SameView.entitledRing (p : Port) : entitledRing c l' p = entitledRing c l p := by
  simp only [Machine.entitledRing, h.entitled]

theorem SameView.writerActive (q : Patch) : writerActive l' q = writerActive l q := writerActive_congr (h.ctx q)

theorem SameView.keyUpFor (p : Port) (q : Patch) : keyUpFor c l' p q = keyUpFor c l p q :=
  keyUpFor_congr (h.records q) h.holder p

theorem SameView.keyedTx (p : Port) (q : Patch) (ms : Nat) : keyedTx c l' p q ms = keyedTx c l p q ms :=
  keyedTx_congr (by rw [h.rings]) c p ms

theorem SameView.followed (p : Port) (r : Reader) (t : TxPort) : followed c l' p r t = followed c l p r t :=
  followed_congr (h.records r.ring) h.holder (by rw [h.rings]) (h.ctx r.ring) p t

end

/-! ### One transmit machine follows -/

/-- The ring that a DORMANT port keys on at once, if any: it is entitled to it and the writer is active (R67). -/
def keysOn (c : Settings) (l : Live) (p : Port) : Option Patch := (entitledRing c l p).filter (fun q => writerActive l q)

theorem keysOn_iff {c : Settings} {l : Live} {p : Port} {q : Patch} :
    keysOn c l p = some q ↔ entitledRing c l p = some q ∧ writerActive l q = true := Option.filter_eq_some_iff

theorem keysOn_none_iff {c : Settings} {l : Live} {p : Port} :
    keysOn c l p = none ↔ ∀ q, entitledRing c l p = some q → writerActive l q = false := by
  rw [keysOn, Option.filter_eq_none_iff]
  simp only [Bool.not_eq_true]

/-- A transmit machine once it has followed floors and plan (R67, R70, R72). -/
def syncedTx (c : Settings) (l : Live) (p : Port) (t : TxPort) : TxPort :=
  match t.state with
  | .dormant => (keysOn c l p).elim t (fun q => keyedTx c l p q (keyUpFor c l p q))
  | .fault => t
  | .keying | .onAir | .hang => t.reader.elim t (fun r => followed c l p r t)

/-- A receive side once its port's transmit machine has followed: touched where the port keys (R34). -/
def syncedRx (c : Settings) (l : Live) (p : Port) : RxPort :=
  if (look l.tx p).state = .dormant ∧ (keysOn c l p).isSome then rxAsKeyed c p (look l.rx p) else look l.rx p

theorem syncedTx_dormant {c : Settings} {l : Live} {p : Port} {t : TxPort} (h : t.state = .dormant) :
    syncedTx c l p t = (keysOn c l p).elim t (fun q => keyedTx c l p q (keyUpFor c l p q)) := by
  rw [syncedTx, h]

theorem syncedTx_fault {c : Settings} {l : Live} {p : Port} {t : TxPort} (h : t.state = .fault) : syncedTx c l p t = t := by
  rw [syncedTx, h]

theorem syncedTx_keyed {c : Settings} {l : Live} {p : Port} {t : TxPort} (h : keyed t = true) :
    syncedTx c l p t = t.reader.elim t (fun r => followed c l p r t) := by
  rcases keyed_iff.1 h with hs | hs | hs <;> rw [syncedTx, hs]

theorem not_dormant_of_keyed {t : TxPort} (h : keyed t = true) : t.state ≠ .dormant := by
  rcases keyed_iff.1 h with hs | hs | hs <;> rw [hs] <;> decide

theorem state_cases (t : TxPort) : t.state = .dormant ∨ t.state = .fault ∨ keyed t = true := by
  rw [keyed_iff]
  cases t.state <;> simp

theorem SameView.keysOn {c : Settings} {l l' : Live} (h : SameView c l l') (p : Port) : keysOn c l' p = keysOn c l p := by
  rw [Follow.keysOn, h.entitledRing, funext fun q => h.writerActive q, Follow.keysOn]

theorem SameView.syncedTx {c : Settings} {l l' : Live} (h : SameView c l l') (p : Port) (t : TxPort) :
    syncedTx c l' p t = syncedTx c l p t := by
  simp only [Follow.syncedTx, h.keysOn, h.keyedTx, h.keyUpFor, h.followed]

section

variable {c : Settings} {l : Live} {p : Port}

theorem syncPort_keys {q : Patch} (hd : (look l.tx p).state = .dormant) (hq : keysOn c l p = some q) :
    syncPort c l p = key c p q (keyUpFor c l p q) l := by
  obtain ⟨hring, hactive⟩ := keysOn_iff.1 hq
  simp only [syncPort, hd, hring, hactive, if_true]

theorem syncPort_waits (hd : (look l.tx p).state = .dormant) (hq : keysOn c l p = none) : syncPort c l p = l := by
  cases hring : entitledRing c l p with
  | none => simp only [syncPort, hd, hring]
  | some q => simp only [syncPort, hd, hring, keysOn_none_iff.1 hq q hring, Bool.false_eq_true, if_false]

theorem syncPort_fault (h : (look l.tx p).state = .fault) : syncPort c l p = l := by
  simp only [syncPort, h]

theorem syncPort_keyed (h : keyed (look l.tx p) = true) : syncPort c l p = syncReader c l p := by
  rcases keyed_iff.1 h with hs | hs | hs <;> simp only [syncPort, hs]

theorem syncPort_reader {r : Reader} (h : keyed (look l.tx p) = true) (hr : (look l.tx p).reader = some r) :
    syncPort c l p = l.setTx p (followed c l p r (look l.tx p)) := by
  rw [syncPort_keyed h, syncReader_of_reader hr]

theorem syncPort_no_reader (h : keyed (look l.tx p) = true) (hr : (look l.tx p).reader = none) : syncPort c l p = l := by
  rw [syncPort_keyed h, syncReader_of_none hr]

end

theorem put_same {α : Type} {n : Nat} (v : Vector α n) (i : Fin n) : put v i (look v i) = v :=
  table_ext fun j => by
    rw [look_put]
    split
    · rename_i hj
      rw [hj]
    · rfl

theorem syncPort_tx (c : Settings) (l : Live) (p : Port) :
    (syncPort c l p).tx = put l.tx p (syncedTx c l p (look l.tx p)) := by
  rcases state_cases (look l.tx p) with hd | hf | hk
  · rw [syncedTx_dormant hd]
    cases hq : keysOn c l p with
    | none => rw [syncPort_waits hd hq, Option.elim_none, put_same]
    | some q => rw [syncPort_keys hd hq, Option.elim_some, key_tx]
  · rw [syncPort_fault hf, syncedTx_fault hf, put_same]
  · rw [syncedTx_keyed hk]
    cases hr : (look l.tx p).reader with
    | none => rw [syncPort_no_reader hk hr, Option.elim_none, put_same]
    | some r => rw [syncPort_reader hk hr, Option.elim_some, Live.setTx_tx]

theorem syncPort_rx (c : Settings) (l : Live) (p : Port) : (syncPort c l p).rx = put l.rx p (syncedRx c l p) := by
  rcases state_cases (look l.tx p) with hd | hf | hk
  · cases hq : keysOn c l p with
    | none =>
      rw [syncPort_waits hd hq, syncedRx, if_neg (fun h => by rw [hq] at h; exact absurd h.2 (by decide)), put_same]
    | some q =>
      have hkeys : (look l.tx p).state = .dormant ∧ (keysOn c l p).isSome = true := ⟨hd, by rw [hq]; rfl⟩
      rw [syncPort_keys hd hq, syncedRx, if_pos hkeys, key_rx]
  · rw [syncPort_fault hf, syncedRx, if_neg (fun h => by rw [hf] at h; exact absurd h.1 (by decide)), put_same]
  · rw [syncedRx, if_neg (fun h => not_dormant_of_keyed hk h.1), put_same]
    cases hr : (look l.tx p).reader with
    | none => rw [syncPort_no_reader hk hr]
    | some r => rw [syncPort_reader hk hr, Live.setTx_rx]

theorem ctxOf_syncPort (c : Settings) (l : Live) (p : Port) (q : Patch) : ctxOf (syncPort c l p) q = ctxOf l q := by
  rcases state_cases (look l.tx p) with hd | hf | hk
  · cases hq : keysOn c l p with
    | none => rw [syncPort_waits hd hq]
    | some r => rw [syncPort_keys hd hq, ctxOf_key]
  · rw [syncPort_fault hf]
  · cases hr : (look l.tx p).reader with
    | none => rw [syncPort_no_reader hk hr]
    | some r => rw [syncPort_reader hk hr, ctxOf, Live.setTx_fla, ctxOf]

theorem syncPort_view (c : Settings) (l : Live) (p : Port) : SameView c l (syncPort c l p) :=
  .of_beyondFloors (syncPort_beyondFloors c l p) (ctxOf_syncPort c l p)

theorem followed_returns {c : Settings} {l : Live} {p : Port} {r : Reader} {t : TxPort}
    (he : entitled c l p r.ring = true) (hs : t.state = .hang) (hw : writerActive l r.ring = true) :
    followed c l p r t = { t with
      state := .onAir, hang := none
      reader := some { r with cursor := (look l.rings r.ring).head, endMark := none } } := by
  simp [followed, he, hs, hw]

theorem followed_entitled {c : Settings} {l : Live} {p : Port} {r : Reader} {t : TxPort}
    (he : entitled c l p r.ring = true) (h : ¬ (t.state = .hang ∧ writerActive l r.ring = true)) :
    followed c l p r t = { t with reader := some { r with endMark := none } } := by
  rw [followed, if_pos he, if_neg (by simpa using h)]

theorem followed_unentitled {c : Settings} {l : Live} {p : Port} {r : Reader} {t : TxPort}
    (he : entitled c l p r.ring = false) :
    followed c l p r t =
      { t with reader := some { r with endMark := some (r.endMark.getD (look l.rings r.ring).head) } } := by
  rw [followed, he, if_neg (by decide)]

/-- A port that has followed has nothing more to do. -/
theorem syncedTx_idem (c : Settings) (l : Live) (p : Port) (t : TxPort) :
    syncedTx c l p (syncedTx c l p t) = syncedTx c l p t := by
  rcases state_cases t with hd | hf | hk
  · rw [syncedTx_dormant hd]
    cases hq : keysOn c l p with
    | none => rw [Option.elim_none, syncedTx_dormant hd, hq, Option.elim_none]
    | some q =>
      have hring := entitled_of_entitledRing (keysOn_iff.1 hq).1
      rw [Option.elim_some, syncedTx_keyed (by rfl)]
      simp [keyedTx, followed, hring]
  · rw [syncedTx_fault hf, syncedTx_fault hf]
  · rw [syncedTx_keyed hk]
    cases hr : t.reader with
    | none => rw [Option.elim_none, syncedTx_keyed hk, hr, Option.elim_none]
    | some r =>
      rw [Option.elim_some, syncedTx_keyed (by rw [keyed_followed]; exact hk)]
      by_cases he : entitled c l p r.ring = true
      · by_cases hh : t.state = .hang ∧ writerActive l r.ring = true
        · rw [followed_returns he hh.1 hh.2]
          simp [followed, he]
        · rw [followed_entitled he hh]
          exact followed_entitled (r := { r with endMark := none })
            (t := { t with reader := some { r with endMark := none } }) he hh
      · simp [followed, he]

/-- A port has nothing to do exactly where its transmit machine would stay. -/
theorem syncPort_eq_iff {c : Settings} {l : Live} {p : Port} :
    syncPort c l p = l ↔ syncedTx c l p (look l.tx p) = look l.tx p := by
  constructor
  · intro h
    have htx := syncPort_tx c l p
    rw [h] at htx
    exact ((congrArg (fun v => look v p) htx).trans (look_put_same _ _ _)).symm
  · intro h
    rcases state_cases (look l.tx p) with hd | hf | hk
    · cases hq : keysOn c l p with
      | none => exact syncPort_waits hd hq
      | some q =>
        rw [syncedTx_dormant hd, hq, Option.elim_some] at h
        rw [← h] at hd
        exact absurd hd (by simp [keyedTx])
    · exact syncPort_fault hf
    · rw [syncedTx_keyed hk] at h
      cases hr : (look l.tx p).reader with
      | none => exact syncPort_no_reader hk hr
      | some r =>
        rw [hr, Option.elim_some] at h
        rw [syncPort_reader hk hr, h, setTx_same rfl]

theorem following_iff {c : Settings} {l : Live} :
    Following c l ↔ ∀ p, syncedTx c l p (look l.tx p) = look l.tx p := forall_congr' fun _ => syncPort_eq_iff

theorem Following.congr {c : Settings} {l l' : Live} (hl : Following c l) (h : SameView c l l') (htx : l'.tx = l.tx) :
    Following c l' := by
  rw [following_iff] at hl ⊢
  intro p
  rw [htx, h.syncedTx, hl]

/-! ### All transmit machines follow -/

theorem foldl_syncPort (c : Settings) (ps : List Port) (hps : ps.Nodup) (l : Live) (p : Port) :
    look (ps.foldl (syncPort c) l).tx p = (if p ∈ ps then syncedTx c l p (look l.tx p) else look l.tx p) ∧
      look (ps.foldl (syncPort c) l).rx p = if p ∈ ps then syncedRx c l p else look l.rx p := by
  induction ps generalizing l with
  | nil => simp
  | cons x ps ih =>
    obtain ⟨hx, hps⟩ := List.nodup_cons.1 hps
    obtain ⟨htx, hrx⟩ := ih hps (syncPort c l x)
    have hview := syncPort_view c l x
    rw [List.foldl_cons, htx, hrx, syncedRx, hview.syncedTx, hview.keysOn, syncPort_tx, syncPort_rx]
    by_cases he : p = x
    · subst he
      simp [hx]
    · simp [look_put_ne _ _ _ _ he, he, syncedRx]

theorem sync_view (c : Settings) (l : Live) : SameView c l (sync c l) :=
  .of_beyondFloors (sync_beyondFloors c l)
    (foldl_keeps (fun l' => ∀ q, ctxOf l' q = ctxOf l q) (syncPort c)
      (fun l' p h q => (ctxOf_syncPort c l' p q).trans (h q)) _ _ fun _ => rfl)

theorem look_sync_tx (c : Settings) (l : Live) (p : Port) : look (sync c l).tx p = syncedTx c l p (look l.tx p) := by
  rw [sync, (foldl_syncPort c allPorts allPorts_nodup l p).1, if_pos (mem_allPorts p)]

theorem look_sync_rx (c : Settings) (l : Live) (p : Port) : look (sync c l).rx p = syncedRx c l p := by
  rw [sync, (foldl_syncPort c allPorts allPorts_nodup l p).2, if_pos (mem_allPorts p)]

theorem sync_following (c : Settings) (l : Live) : Following c (sync c l) := by
  rw [following_iff]
  intro p
  rw [(sync_view c l).syncedTx, look_sync_tx, syncedTx_idem]

/-- States that agree beyond floors and machines differ in nothing else. -/
theorem restore_of_beyondFloors {l l' : Live} (h : l'.beyondFloors = l.beyondFloors) :
    { l' with tx := l.tx, rx := l.rx, fla := l.fla } = l := by
  obtain ⟨hactive, hrings, hovr, hlamps, hholder, hqueue, hgen, hswitch, hexc, hacc, hreports, hraised⟩ :=
    beyondFloors_fields h
  rw [hactive, hrings, hovr, hlamps, hholder, hqueue, hgen, hswitch, hexc, hacc, hreports, hraised]

/-! ### The selection made again -/

theorem find?_first {f : Patch → Bool} {q : Patch} (hq : f q = true) (hfirst : ∀ r : Patch, r.val < q.val → f r = false) :
    allPatches.find? f = some q := by
  rw [show allPatches = List.finRange 8 by rfl, List.find?_eq_some_iff_getElem]
  refine ⟨hq, q.val, by simp, by simp, fun j hj => ?_⟩
  simpa using hfirst ⟨j, by omega⟩ hj

theorem refilledFloor_granting {c : Settings} {l : Live} {q : Patch} (hg : Granting l q) (hm : (ctxOf l q).mode = .mix)
    (left : List Port) : refilledFloor c l q left = fourLowest c l q := by
  simp [refilledFloor, floorHeld, underAlert, hg.1, hg.2, hm]

theorem claimedFloor_granting {c : Settings} {l : Live} {q : Patch} (hg : Granting l q) (hm : (ctxOf l q).mode = .mix)
    (floor : List Port) (p : Port) : claimedFloor c l q floor p = fourLowest c l q := by
  simp [claimedFloor, floorHeld, underAlert, hg.1, hg.2, hm]

theorem refilledFloor_held {c : Settings} {l : Live} {q : Patch} (hg : ¬ Granting l q) (left : List Port) :
    refilledFloor c l q left = left := by
  rw [refilledFloor, if_pos]
  by_contra hheld
  exact hg (floorHeld_false (Bool.not_eq_true _ ▸ hheld))

theorem granting_sync {c : Settings} {l : Live} {q : Patch} : Granting (sync c l) q ↔ Granting l q := by
  rw [Granting, (sync_view c l).ctx, beyondFloors_freezing (sync_beyondFloors c l)]

theorem reselects_iff {c : Settings} {l : Live} {q : Patch} :
    reselects c l (sync c l) q = true ↔ SelectsAgain c l q := by
  simp only [reselects, (sync_view c l).ctx, Bool.and_eq_true, decide_eq_true_eq, SelectsAgain]
  by_cases hg : Granting l q
  · constructor
    · rintro ⟨⟨hm, hclaims⟩, hfloor⟩
      rw [refilledFloor_granting (granting_sync.2 hg) (by rw [(sync_view c l).ctx]; exact hm)] at hfloor
      exact ⟨hm, hg, Ne.symm hclaims, hfloor⟩
    · rintro ⟨hm, -, hclaims, hfloor⟩
      rw [refilledFloor_granting (granting_sync.2 hg) (by rw [(sync_view c l).ctx]; exact hm)]
      exact ⟨⟨hm, Ne.symm hclaims⟩, hfloor⟩
  · constructor
    · rintro ⟨-, hfloor⟩
      exact absurd (refilledFloor_held (mt granting_sync.1 hg) _) hfloor
    · exact fun h => absurd h.2.1 hg

theorem handOn_settled {c : Settings} {l : Live} (h : ∀ q, ¬ SelectsAgain c l q) (n : Nat) : handOn n c l = sync c l := by
  cases n with
  | zero => rfl
  | succ n =>
    have hnone : reselection c l (sync c l) = none :=
      List.find?_eq_none.2 fun q _ hq => h q (reselects_iff.1 hq)
    rw [handOn, hnone, reselect]

theorem handOn_again {c : Settings} {l : Live} {q : Patch} (hq : SelectsAgain c l q)
    (hfirst : ∀ r : Patch, r.val < q.val → ¬ SelectsAgain c l r) (n : Nat) :
    handOn (n + 1) c l =
      handOn n c (placeFloor c q { ctxOf l q with floor := fourLowest c (sync c l) q } (sync c l)) := by
  have hsome : reselection c l (sync c l) = some q :=
    find?_first (reselects_iff.2 hq) fun r hr => by
      rw [← Bool.not_eq_true, reselects_iff]
      exact hfirst r hr
  have hctx := (sync_view c l).ctx q
  rw [handOn, hsome, reselect, refilledFloor_granting (granting_sync.2 hq.2.1) (by rw [hctx]; exact hq.1), hctx]

theorem handOn_following (n : Nat) (c : Settings) (l : Live) : Following c (handOn n c l) := by
  induction n generalizing l with
  | zero => exact sync_following c l
  | succ n ih =>
    rw [handOn]
    cases reselection c l (sync c l) with
    | none => exact sync_following c l
    | some q => exact ih _

/-! ### A floor put in place -/

theorem look_foldl_unkeyIfReads_tx (c : Settings) (q : Patch) (ps : List Port) (l : Live) (p : Port) :
    look (ps.foldl (unkeyIfReads c q) l).tx p =
      if p ∈ ps ∧ reads l p q = true then TxPort.dormant else look l.tx p := by
  induction ps generalizing l with
  | nil => simp
  | cons x ps ih =>
    rw [List.foldl_cons, ih]
    by_cases hx : reads l x q = true
    · rw [unkeyIfReads_of_reads hx, reads_leaveKeyed _ _ _ _ (.inl rfl), leaveKeyed_tx]
      by_cases he : p = x
      · subst he
        simp [hx, TxPort.dormant]
      · simp [look_put_ne _ _ _ _ he, he]
    · rw [Bool.not_eq_true] at hx
      rw [unkeyIfReads_of_not hx]
      by_cases he : p = x
      · subst he
        simp [hx]
      · simp [he]

theorem look_freshCor (c : Settings) {l l' : Live} {p : Port} (htx : look l'.tx p = look l.tx p)
    (hrx : look l'.rx p = look l.rx p) :
    look (if Ignored c l' p then freshCor p l' else l').rx p = look (if Ignored c l p then freshCor p l else l).rx p := by
  have hi : Ignored c l' p ↔ Ignored c l p := by rw [Ignored, htx]
  by_cases h : Ignored c l p
  · rw [if_pos h, if_pos (hi.2 h), freshCor, freshCor, Live.setRx_rx, Live.setRx_rx, look_put_same, look_put_same, hrx]
  · rw [if_neg h, if_neg (mt hi.1 h), hrx]

theorem look_leaveKeyed_rx_ne (c : Settings) {p x : Port} (h : p ≠ x) (target : TxState) (l : Live) :
    look (leaveKeyed c x target l).rx p = look l.rx p := by
  rw [leaveKeyed_rx]
  split
  · exact look_put_ne _ _ _ _ h
  · rfl

theorem look_leaveKeyed_rx_same (c : Settings) (p : Port) (target : TxState) (l : Live) :
    look (leaveKeyed c p target l).rx p = look (if Ignored c l p then freshCor p l else l).rx p := by
  rw [leaveKeyed_rx]
  by_cases h : Ignored c l p
  · rw [if_pos (corIgnored_iff.2 h), if_pos h]
  · rw [if_neg (mt corIgnored_iff.1 h), if_neg h]

theorem look_foldl_unkeyIfReads_rx (c : Settings) (q : Patch) (ps : List Port) (l : Live) (p : Port) :
    look (ps.foldl (unkeyIfReads c q) l).rx p =
      if p ∈ ps ∧ reads l p q = true then look (if Ignored c l p then freshCor p l else l).rx p else look l.rx p := by
  induction ps generalizing l with
  | nil => simp
  | cons x ps ih =>
    rw [List.foldl_cons, ih]
    by_cases hx : reads l x q = true
    · rw [unkeyIfReads_of_reads hx, reads_leaveKeyed _ _ _ _ (.inl rfl)]
      by_cases he : p = x
      · subst he
        simp [hx, look_leaveKeyed_rx_same]
      · have htx : look (leaveKeyed c x .dormant l).tx p = look l.tx p := by
          rw [leaveKeyed_tx, look_put_ne _ _ _ _ he]
        have hrx := look_leaveKeyed_rx_ne c he .dormant l
        rw [look_freshCor c htx hrx, hrx]
        simp [he]
    · rw [Bool.not_eq_true] at hx
      rw [unkeyIfReads_of_not hx]
      by_cases he : p = x
      · subst he
        simp [hx]
      · simp [he]

theorem entersReading_iff {l : Live} {q : Patch} {ctx : Context} {p : Port} :
    EntersReading l q ctx p ↔ p ∈ entering l q ctx ∧ reads l p q = true := by
  simp only [EntersReading, entering, List.mem_filter, List.contains_eq_mem, Bool.not_eq_true', decide_eq_false_iff_not,
    and_assoc]

section

variable (c : Settings) {l : Live} {q : Patch} {ctx : Context} {p : Port}

theorem look_placeFloor_entering (h : EntersReading l q ctx p) :
    look (placeFloor c q ctx l).tx p = TxPort.dormant ∧
      look (placeFloor c q ctx l).rx p = look (if Ignored c l p then freshCor p l else l).rx p := by
  rw [placeFloor_eq, Live.setCtx_tx, Live.setCtx_rx, look_foldl_unkeyIfReads_tx, look_foldl_unkeyIfReads_rx,
    if_pos (entersReading_iff.1 h), if_pos (entersReading_iff.1 h)]
  exact ⟨rfl, rfl⟩

theorem look_placeFloor_other (h : ¬ EntersReading l q ctx p) :
    look (placeFloor c q ctx l).tx p = look l.tx p ∧ look (placeFloor c q ctx l).rx p = look l.rx p := by
  rw [placeFloor_eq, Live.setCtx_tx, Live.setCtx_rx, look_foldl_unkeyIfReads_tx, look_foldl_unkeyIfReads_rx,
    if_neg (mt entersReading_iff.2 h), if_neg (mt entersReading_iff.2 h)]
  exact ⟨rfl, rfl⟩

end

theorem look_placeFloor_fla (c : Settings) (l : Live) (q r : Patch) (ctx : Context) :
    look (placeFloor c q ctx l).fla r = { look l.fla r with ctx := if r = q then ctx else ctxOf l r } := by
  rw [placeFloor_eq, Live.setCtx_fla, look_put, foldl_unkeyIfReads_fla]
  split
  · rename_i hr
    rw [hr]
  · rfl

/-! ### Entitlement and keying, said in the words of the statement -/

theorem entitled_alert_iff {c : Settings} {l : Live} {p : Port} {q : Patch} (h : (ctxOf l q).source = .alert) :
    entitled c l p q = true ↔ (memberIn c l q p).isSome = true ∧ p.val < 16 := by
  simp [entitled, h, isConsole]

theorem listenMember_iff {c : Settings} {l : Live} {q : Patch} {p : Port} :
    listenMember c l q p = true ↔ ∃ m, memberIn c l q p = some m ∧ m.listen = true := Option.any_eq_true ..

theorem onFloor_false_iff {l : Live} {q : Patch} {p : Port} : onFloor l q p = false ↔ p ∉ (ctxOf l q).floor := by
  simp [onFloor]

theorem entitled_listen_iff {c : Settings} {l : Live} {p : Port} {q : Patch} (h : (ctxOf l q).source = .receive)
    (hp : p.val < 16 ∨ l.guestHolder = none) :
    entitled c l p q = true ↔ p ∉ (ctxOf l q).floor ∧ listenMember c l q p = true := by
  have hguest : (isConsole p && l.guestHolder.isSome) = false := by
    rcases hp with hp | hp
    · simp [isConsole, hp]
    · simp [hp]
  simp [entitled, h, hguest, onFloor]

theorem entitled_guest_iff {c : Settings} {l : Live} {p : Port} {q : Patch} (h : (ctxOf l q).source = .receive)
    (hp : 16 ≤ p.val) (hholder : l.guestHolder ≠ none) :
    entitled c l p q = true ↔
      p ∉ (ctxOf l q).floor ∧ (activeRecord c l q).valid = true ∧ l.guestHolder = some q := by
  have hguest : (isConsole p && l.guestHolder.isSome) = true := by
    simp [isConsole, hp, Option.isSome_iff_ne_none, hholder]
  simp only [entitled, h, hguest, if_true]
  simp [onFloor, guestOf, isConsole, hp]

theorem keyedAtHead_eq (c : Settings) (l : Live) (p : Port) (q : Patch) :
    keyedAtHead c l q p = keyedTx c l p q (keyUpFor c l p q) := by
  have hkeyUp : keyUpFor c l p q = match memberIn c l q p with
      | some m =>
        if 16 ≤ p.val ∧ l.guestHolder = some q then (look c.ports p).keyUp else m.keyUp.getD (look c.ports p).keyUp
      | none => (look c.ports p).keyUp := by
    simp only [keyUpFor, guestOf, isConsole, Bool.and_eq_true, decide_eq_true_eq, beq_iff_eq]
    cases memberIn c l q p <;> simp
  rw [keyedTx, hkeyUp]
  rfl

theorem key_of_ignoring_active {c : Settings} {l : Live} {p : Port}
    (hi : (look c.ports p).duplex = .half ∨ (look c.ports p).rxlo = true) (ha : (look l.rx p).rx = .active)
    (q : Patch) (ms : Nat) (r : Patch) :
    claimantsOf (key c p q ms l) r = (claimantsOf l r).filter (fun y => y ≠ p) := by
  have hrel : releasesAsKeyed c l p = true := by simp [releasesAsKeyed, ignoresWhenKeyed_iff.2 hi, rxActive, ha]
  rw [claimantsOf_key, hrel, if_pos rfl, dropPort]

theorem key_fla_of_not {c : Settings} {l : Live} {p : Port}
    (h : ¬ (((look c.ports p).duplex = .half ∨ (look c.ports p).rxlo = true) ∧ (look l.rx p).rx = .active))
    (q : Patch) (ms : Nat) : (key c p q ms l).fla = l.fla := by
  have hrel : releasesAsKeyed c l p = false := by
    rw [Bool.eq_false_iff]
    intro hrel
    rw [releasesAsKeyed, Bool.and_eq_true, ignoresWhenKeyed_iff, rxActive, decide_eq_true_eq] at hrel
    exact h hrel
  refine table_ext fun r => ?_
  rw [look_key_fla, hrel, if_neg (by decide)]
  rfl

/-! ### The consoles as guests -/

theorem guestKey_waits {c : Settings} {q : Patch} {l : Live} {p : Port}
    (h : (look l.tx p).state ≠ .dormant ∨ (ctxOf l q).source = .alert ∨ p ∈ (ctxOf l q).floor) :
    guestKey c q l p = l := by
  rw [guestKey, if_neg]
  simp only [Bool.and_eq_true, decide_eq_true_eq, Bool.not_eq_true', underAlert, decide_eq_false_iff_not,
    onFloor_false_iff]
  tauto

theorem guestKey_keys {c : Settings} {q : Patch} {l : Live} {p : Port} (hd : (look l.tx p).state = .dormant)
    (hs : (ctxOf l q).source = .receive) (hp : p ∉ (ctxOf l q).floor) : guestKey c q l p = key c p q 0 l := by
  rw [guestKey, if_pos]
  simp [hd, hs, underAlert, onFloor, hp]

theorem look_pauseGuests_tx {c : Settings} {q : Patch} {l : Live} {p : Port} (hq : l.guestHolder = some q)
    (hp : 16 ≤ p.val) :
    look (pauseGuests c q l).tx p = if reads l p q = true then TxPort.dormant else look l.tx p := by
  have hmem : p ∈ consolePorts := by
    revert p
    decide
  have hfold : pauseGuests c q l = consolePorts.foldl (unkeyIfReads c q) l := if_pos hq
  rw [hfold, look_foldl_unkeyIfReads_tx]
  simp only [hmem, true_and]

end Sys2Proof.Follow

/-! SUPPORT. Where one round of keyings settles a change of floors, and how every machine has followed it. -/

namespace Sys2Proof.Rounds

open Sys2Proof.Machine Sys2Proof.Safety Sys2Proof.Claims Sys2Proof.ResetOrders Sys2Proof.Signalling Sys2Proof.Keying
  Sys2Proof.LiveRuns Sys2Proof.ClaimSteps Sys2Proof.Follow

/-! ### Selection among fewer ports -/

theorem select_some_of_mem {key : Port → Nat} {ps : List Port} {p : Port} (hp : p ∈ ps) : (select key ps).isSome := by
  cases ps with
  | nil => exact absurd hp List.not_mem_nil
  | cons x ps =>
    unfold select
    split
    · rfl
    · split <;> rfl

/-- The selected port has the lowest key. -/
theorem select_le {key : Port → Nat} {ps : List Port} {p : Port} (h : select key ps = some p) {x : Port} (hx : x ∈ ps) :
    key p ≤ key x := by
  induction ps generalizing p with
  | nil => exact absurd hx List.not_mem_nil
  | cons y ps ih =>
    unfold select at h
    split at h
    · rename_i hnone
      rcases List.mem_cons.1 hx with rfl | hmem
      · rw [Option.some.inj h]
      · have hsome := select_some_of_mem (key := key) hmem
        rw [hnone] at hsome
        exact absurd hsome (by decide)
    · rename_i b hb
      split at h
      · rename_i hle
        obtain rfl := Option.some.inj h
        rcases List.mem_cons.1 hx with rfl | hmem
        · exact le_refl _
        · exact hle.trans (ih hb hmem)
      · rename_i hgt
        obtain rfl := Option.some.inj h
        rcases List.mem_cons.1 hx with rfl | hmem
        · omega
        · exact ih hb hmem

/-- Selection does not ask for the ports it passes over. -/
theorem select_filter {key : Port → Nat} {f : Port → Bool} {ps : List Port} {p : Port} (h : select key ps = some p)
    (hf : f p = true) : select key (ps.filter f) = some p := by
  induction ps generalizing p with
  | nil => exact h
  | cons y ps ih =>
    unfold select at h
    split at h
    · rename_i hnone
      obtain rfl := Option.some.inj h
      have hnil : ps = [] := by
        cases ps with
        | nil => rfl
        | cons z zs =>
          have hsome := select_some_of_mem (key := key) (List.mem_cons_self (a := z) (l := zs))
          rw [hnone] at hsome
          exact absurd hsome (by decide)
      subst hnil
      simp [hf, select]
    · rename_i b hb
      split at h
      · rename_i hle
        obtain rfl := Option.some.inj h
        rw [List.filter_cons_of_pos hf]
        unfold select
        split
        · rfl
        · rename_i d hd
          have hlow := select_le hb (List.mem_filter.1 (mem_of_select hd)).1
          rw [if_pos (hle.trans hlow)]
      · rename_i hgt
        obtain rfl := Option.some.inj h
        have htail := ih hb hf
        by_cases hy : f y = true
        · rw [List.filter_cons_of_pos hy]
          simp only [select, htail, hgt, if_false]
        · rwa [List.filter_cons_of_neg hy]

theorem select_none_iff {key : Port → Nat} {ps : List Port} : select key ps = none ↔ ps = [] := by
  constructor
  · intro h
    cases ps with
    | nil => rfl
    | cons x xs =>
      have hsome := select_some_of_mem (key := key) (List.mem_cons_self (a := x) (l := xs))
      rw [h] at hsome
      exact absurd hsome (by decide)
  · rintro rfl
    rfl

/-- The lowest keys stay the same where only ports that are not among them go. -/
theorem selectMany_filter {key : Port → Nat} {f : Port → Bool} {n : Nat} {ps : List Port}
    (hf : ∀ p ∈ selectMany key n ps, f p = true) : selectMany key n (ps.filter f) = selectMany key n ps := by
  induction n generalizing ps with
  | zero => rfl
  | succ n ih =>
    cases hs : select key ps with
    | none =>
      rw [select_none_iff] at hs
      subst hs
      rfl
    | some p =>
      have hmany : selectMany key (n + 1) ps = p :: selectMany key n (dropPort p ps) := by simp only [selectMany, hs]
      rw [hmany] at hf ⊢
      have hp := hf p List.mem_cons_self
      have hdrop : dropPort p (ps.filter f) = (dropPort p ps).filter f := by
        rw [dropPort, dropPort, List.filter_filter, List.filter_filter]
        exact List.filter_congr fun x _ => Bool.and_comm _ _
      simp only [selectMany, select_filter hs hp, hdrop, ih fun x hx => hf x (List.mem_cons_of_mem _ hx)]

/-! ### The four lowest keys of a patch -/

theorem rankIn_congr {c : Settings} {l l' : Live} {q : Patch} (h : activeRecord c l' q = activeRecord c l q) (p : Port) :
    rankIn c l' q p = rankIn c l q p := by
  rw [rankIn, memberIn_congr h, rankIn]

theorem arbKey_congr {c : Settings} {l l' : Live} {q : Patch} (h : activeRecord c l' q = activeRecord c l q) :
    arbKey c l' q = arbKey c l q :=
  funext fun p => by rw [arbKey, rankIn_congr h, arbKey]

theorem eligible_congr {c : Settings} {l l' : Live} {q : Patch} {p : Port}
    (h : activeRecord c l' q = activeRecord c l q) (hemg : (look l'.rx p).emg = (look l.rx p).emg)
    (restriction : Option Port) :
    eligible c l' q restriction p = eligible c l q restriction p := by
  cases restriction with
  | none => rfl
  | some mp => simp only [eligible, rankIn_congr h, hemg]

theorem candidates_congr {c : Settings} {l l' : Live} {q : Patch} (h : activeRecord c l' q = activeRecord c l q)
    (hemg : ∀ p, (look l'.rx p).emg = (look l.rx p).emg) (hclaims : claimantsOf l' q = claimantsOf l q)
    (hrestriction : (ctxOf l' q).restriction = (ctxOf l q).restriction) : candidates c l' q = candidates c l q := by
  rw [candidates, hclaims, hrestriction, candidates]
  exact List.filter_congr fun p _ => eligible_congr h (hemg p) _

theorem selectedFloor_congr {c : Settings} {l l' : Live} {q : Patch} (h : activeRecord c l' q = activeRecord c l q)
    (hemg : ∀ p, (look l'.rx p).emg = (look l.rx p).emg) (hclaims : claimantsOf l' q = claimantsOf l q)
    (hrestriction : (ctxOf l' q).restriction = (ctxOf l q).restriction) : selectedFloor c l' q = selectedFloor c l q := by
  rw [selectedFloor, arbKey_congr h, candidates_congr h hemg hclaims hrestriction, selectedFloor]

theorem fourLowest_congr {c : Settings} {l l' : Live} {q : Patch} (h : activeRecord c l' q = activeRecord c l q)
    (hemg : ∀ p, (look l'.rx p).emg = (look l.rx p).emg) (hclaims : claimantsOf l' q = claimantsOf l q)
    (hrestriction : (ctxOf l' q).restriction = (ctxOf l q).restriction) : fourLowest c l' q = fourLowest c l q := by
  rw [fourLowest, arbKey_congr h, candidates_congr h hemg hclaims hrestriction, fourLowest]

/-! ### What a round of keyings releases -/

/-- A port whose receive state the round changes: it drops out of RX_ACTIVE (R34). -/
def Released (c : Settings) (l : Live) (p : Port) : Prop := (look (sync c l).rx p).rx ≠ (look l.rx p).rx

/-- Who is released keys, with its COR ignored from then on. -/
theorem keys_of_released {c : Settings} {l : Live} {p : Port} (h : Released c l p) :
    (look l.tx p).state = .dormant ∧ (∃ q, keysOn c l p = some q) ∧ ignoresWhenKeyed (look c.ports p) = true := by
  rw [Released, look_sync_rx, syncedRx] at h
  split at h
  · rename_i hkeys
    refine ⟨hkeys.1, Option.isSome_iff_exists.1 hkeys.2, ?_⟩
    rw [← Bool.not_eq_false]
    intro hi
    rw [rxAsKeyed_of_heard hi] at h
    exact h rfl
  · exact absurd rfl h

theorem claimantsOf_sync_of_kept {c : Settings} {l : Live} {q : Patch} (h : ∀ p ∈ claimantsOf l q, ¬ Released c l p) :
    claimantsOf (sync c l) q = claimantsOf l q := by
  rw [(sync_run c l).tuned.claims q, unreleased, List.filter_eq_self]
  exact fun p hp => decide_eq_true (not_not.1 (h p hp))

/-- The four lowest keys stay the same where only claimants that are not among them are released. -/
theorem fourLowest_sync {c : Settings} {l : Live} {q : Patch} (h : ∀ p ∈ fourLowest c l q, ¬ Released c l p) :
    fourLowest c (sync c l) q = fourLowest c l q := by
  have hrecord := (sync_view c l).records q
  have hcandidates : candidates c (sync c l) q =
      (candidates c l q).filter (fun p => decide ((look (sync c l).rx p).rx = (look l.rx p).rx)) := by
    rw [candidates, (sync_run c l).tuned.claims q, unreleased, (sync_view c l).ctx, candidates, List.filter_filter,
      List.filter_filter]
    refine List.filter_congr fun p _ => ?_
    rw [eligible_congr hrecord ((sync_run c l).tuned.rx p).1, Bool.and_comm]
  rw [fourLowest, arbKey_congr hrecord, hcandidates, selectMany_filter, fourLowest]
  intro p hp
  refine decide_eq_true (not_not.1 (h p ?_))
  rw [fourLowest, mem_portSet]
  exact hp

/-- One round is all where each patch either loses no claimant in it, or has its four lowest claimants on the floor and
loses none of them. -/
theorem settleKeys_eq_sync {c : Settings} {l : Live}
    (h : ∀ q, (ctxOf l q).mode = .mix → Granting l q → (∀ p ∈ claimantsOf l q, ¬ Released c l p) ∨
      (fourLowest c l q = (ctxOf l q).floor ∧ ∀ p ∈ (ctxOf l q).floor, ¬ Released c l p)) :
    settleKeys c l = sync c l := by
  refine handOn_settled (fun q hq => ?_) 18
  obtain ⟨hmix, hgrants, hclaims, hfloor⟩ := hq
  rcases h q hmix hgrants with hkept | ⟨hselected, hkept⟩
  · exact hclaims (claimantsOf_sync_of_kept hkept)
  · exact hfloor ((fourLowest_sync (by rwa [hselected])).trans hselected)

/-! ### Where a port is entitled -/

theorem isRadio_of_ignores {c : Settings} (hset : SettingsLaw c) {p : Port}
    (h : ignoresWhenKeyed (look c.ports p) = true) : isConsole p = false := by
  rw [← Bool.not_eq_true]
  intro hc
  rw [not_ignores_of_console hset hc] at h
  exact absurd h (by decide)

/-- A port that is no console, or one while no patch holds the guest resource, is entitled as a member alone (R67). -/
theorem memberIn_of_entitled_plain {c : Settings} {l : Live} {p : Port} {q : Patch}
    (hp : p.val < 16 ∨ l.guestHolder = none) (h : entitled c l p q = true) : (memberIn c l q p).isSome = true := by
  cases hs : (ctxOf l q).source with
  | alert => exact ((entitled_alert_iff hs).1 h).1
  | receive => exact isSome_of_listenMember ((entitled_listen_iff hs hp).1 h).2

/-- A port is entitled to one ring at most: that of its patch, or as a guest that of the holder (R4, R67). -/
theorem entitled_unique {c : Settings} (hplan : PlanLaw c) {l : Live} {p : Port} {q r : Patch}
    (hq : entitled c l p q = true) (hr : entitled c l p r = true) : q = r := by
  by_cases hp : p.val < 16 ∨ l.guestHolder = none
  · exact patch_unique hplan (memberIn_of_entitled_plain hp hq) (memberIn_of_entitled_plain hp hr)
  · obtain ⟨hconsole, hholder⟩ := not_or.1 hp
    have hguest : ∀ {x : Patch}, entitled c l p x = true → l.guestHolder = some x := fun {x} hx => by
      cases hs : (ctxOf l x).source with
      | alert => exact absurd ((entitled_alert_iff hs).1 hx).2 hconsole
      | receive => exact ((entitled_guest_iff hs (not_lt.1 hconsole) hholder).1 hx).2.2
    exact Option.some.inj ((hguest hq).symm.trans (hguest hr))

theorem entitledRing_of_entitled {c : Settings} (hplan : PlanLaw c) {l : Live} {p : Port} {q : Patch}
    (h : entitled c l p q = true) : entitledRing c l p = some q := by
  cases hring : entitledRing c l p with
  | none => exact absurd h (List.find?_eq_none.1 hring q (mem_allPatches q))
  | some r => rw [entitled_unique hplan (entitled_of_entitledRing hring) h]

theorem keysOn_of_entitled {c : Settings} (hplan : PlanLaw c) {l : Live} {p : Port} {q : Patch}
    (h : entitled c l p q = true) (hw : writerActive l q = true) : keysOn c l p = some q :=
  keysOn_iff.2 ⟨entitledRing_of_entitled hplan h, hw⟩

theorem radio_iff {p : Port} : isConsole p = false ↔ p.val < 16 := by simp [isConsole]

/-- A port that is released as it keys keys on the ring of the one patch it is a member of (R4, R34). -/
theorem keysOn_of_released {c : Settings} (hplan : PlanLaw c) (hset : SettingsLaw c) {l : Live} {p : Port} {q : Patch}
    (hmember : (memberIn c l q p).isSome = true) (h : Released c l p) :
    (look l.tx p).state = .dormant ∧ p.val < 16 ∧ keysOn c l p = some q := by
  obtain ⟨hd, ⟨r, hr⟩, hi⟩ := keys_of_released h
  have hradio := radio_iff.1 (isRadio_of_ignores hset hi)
  have hentitled := entitled_of_entitledRing (keysOn_iff.1 hr).1
  obtain rfl := patch_unique hplan (memberIn_of_entitled_plain (.inl hradio) hentitled) hmember
  exact ⟨hd, hradio, hr⟩

theorem not_mem_floor_of_keysOn {c : Settings} {l : Live} {p : Port} {q : Patch} (hs : (ctxOf l q).source = .receive)
    (hp : p.val < 16) (h : keysOn c l p = some q) : p ∉ (ctxOf l q).floor :=
  ((entitled_listen_iff hs (.inl hp)).1 (entitled_of_entitledRing (keysOn_iff.1 h).1)).1

/-- Where a machine has nothing to do, its port is not DORMANT with a ring to key on. -/
theorem keysOn_none_of_following {c : Settings} {l : Live} (h : Following c l) {p : Port}
    (hd : (look l.tx p).state = .dormant) : keysOn c l p = none := by
  cases hq : keysOn c l p with
  | none => rfl
  | some q =>
    have hkeys := following_iff.1 h p
    rw [syncedTx_dormant hd, hq, Option.elim_some] at hkeys
    rw [← hkeys] at hd
    exact absurd hd (by simp [keyedTx])

/-! ### How machines have followed a change of floors -/

/-- All transmit machines of one state have followed the floors as they stand in the other. -/
structure Followed (c : Settings) (m t : Live) : Prop where
  view : SameView c m t
  tx : ∀ p, look t.tx p = syncedTx c m p (look m.tx p)

theorem followed_sync (c : Settings) (m : Live) : Followed c m (sync c m) := ⟨sync_view c m, look_sync_tx c m⟩

theorem Followed.of_following {c : Settings} {m : Live} (h : Following c m) : Followed c m m :=
  ⟨.refl c m, fun p => (following_iff.1 h p).symm⟩

/-- What is left of a port's transmit machine as floors are put in place: the machine it had, if it reads no ring whose
floor it is on; or a DORMANT one, if it has come on the floor of the ring it read (R50). -/
def Unkeyed (u m : Live) (p : Port) : Prop :=
  (look m.tx p = look u.tx p ∧ ∀ q, reads u p q = true → p ∉ (ctxOf m q).floor) ∨
    (look m.tx p = TxPort.dormant ∧ ∃ q, reads u p q = true ∧ p ∈ (ctxOf m q).floor)

theorem keyedOrDormant_of_synced {c : Settings} {t : Live} {p : Port} {x : TxPort} (hx : x.state = .dormant)
    (h : look t.tx p = syncedTx c t p x) : KeyedOrDormant c t p x := by
  rw [syncedTx_dormant hx] at h
  refine ⟨fun q hring hactive => ?_, fun hquiet => ?_⟩
  · rw [h, keysOn_iff.2 ⟨hring, hactive⟩, Option.elim_some, keyedAtHead_eq]
  · rw [h, keysOn_none_iff.2 hquiet, Option.elim_none]

/-- A machine that has followed from what putting floors in place left of it has followed the change of floors. -/
theorem followsAt_of_followed {c : Settings} {u m t : Live} {p : Port} (hm : Unkeyed u m p) (h : Followed c m t) :
    FollowsAt c u t p := by
  have hsynced : look t.tx p = syncedTx c t p (look m.tx p) := by rw [h.view.syncedTx, h.tx]
  rcases hm with ⟨hsame, hoff⟩ | ⟨hdormant, r, hreads, hon⟩
  · rw [hsame] at hsynced
    refine ⟨fun hf => ?_, fun hd => keyedOrDormant_of_synced hd hsynced, fun z hz hk => ?_⟩
    · rw [hsynced, syncedTx_fault hf]
    · have htalks : p ∉ (ctxOf t z.ring).floor := by
        rw [h.view.ctx]
        exact hoff z.ring (reads_iff.2 ⟨hk, z, hz, rfl⟩)
      rw [syncedTx_keyed hk, hz, Option.elim_some] at hsynced
      refine ⟨fun ht => absurd ht htalks, fun _ he hr => ?_, fun _ he hr => ?_, fun _ he => ?_⟩
      · rw [hsynced, followed_returns he hr.1 hr.2]
      · rw [hsynced, followed_entitled he hr]
      · rw [hsynced, followed_unentitled he]
  · rw [hdormant] at hsynced
    obtain ⟨hk, y, hy, hring⟩ := reads_iff.1 hreads
    refine ⟨fun hf => ?_, fun hd => absurd hd (not_dormant_of_keyed hk), fun z hz _ => ?_⟩
    · rw [keyed, hf] at hk
      exact absurd hk (by decide)
    · obtain rfl : y = z := Option.some.inj (hy.symm.trans hz)
      subst hring
      have htalks : p ∈ (ctxOf t y.ring).floor := by rwa [h.view.ctx]
      exact ⟨fun _ => keyedOrDormant_of_synced rfl hsynced, fun hn => absurd htalks hn, fun hn => absurd htalks hn,
        fun hn => absurd htalks hn⟩

/-- A DORMANT LISTEN member off a floor that is taken keys at the head (R51, R67). -/
theorem listener_keys {c : Settings} (hplan : PlanLaw c) {t : Live} {q : Patch} {p : Port} {x : TxPort}
    (h : KeyedOrDormant c t p x) (hlisten : listenMember c t q p = true) (hp : p.val < 16 ∨ t.guestHolder = none)
    (hs : (ctxOf t q).source = .receive) (hfloor : (ctxOf t q).floor ≠ []) (hoff : p ∉ (ctxOf t q).floor) :
    look t.tx p = keyedAtHead c t q p := by
  refine h.1 q (entitledRing_of_entitled hplan ((entitled_listen_iff hs hp).2 ⟨hoff, hlisten⟩)) ?_
  rw [writerActive, Bool.or_eq_true]
  exact .inl (by simpa using hfloor)

/-! ### The state before the floors are put in place, and the one after -/

/-- A state in which floors have been put in place and nothing else a transmit machine looks at has changed. -/
structure Placed (c : Settings) (u m : Live) : Prop where
  records : ∀ q, activeRecord c m q = activeRecord c u q
  holder : m.guestHolder = u.guestHolder
  rings : m.rings = u.rings
  source : ∀ q, (ctxOf m q).source = (ctxOf u q).source
  tx : ∀ p, Unkeyed u m p

theorem listenMember_congr {c : Settings} {l l' : Live} {q : Patch} (h : activeRecord c l' q = activeRecord c l q)
    (p : Port) :
    listenMember c l' q p = listenMember c l q p := by
  rw [listenMember, memberIn_congr h, listenMember]

theorem keyedAtHead_congr {c : Settings} {l l' : Live} {q : Patch} (h : activeRecord c l' q = activeRecord c l q)
    (hholder : l'.guestHolder = l.guestHolder) (hrings : l'.rings = l.rings) (p : Port) :
    keyedAtHead c l' q p = keyedAtHead c l q p := by
  rw [keyedAtHead, memberIn_congr h, hholder, hrings, keyedAtHead]

/-- Every transmit machine has followed, and every DORMANT LISTEN member of a patch whose floor is taken has keyed. -/
def AllFollowed (c : Settings) (u t : Live) : Prop :=
  (∀ r : Port, FollowsAt c u t r) ∧
    ∀ (q : Patch) (r : Port), (look u.tx r).state = .dormant → listenMember c u q r = true →
      r.val < 16 ∨ u.guestHolder = none → (ctxOf u q).source = .receive → (ctxOf t q).floor ≠ [] →
      r ∉ (ctxOf t q).floor → look t.tx r = keyedAtHead c u q r

theorem allFollowed_of_placed {c : Settings} (hplan : PlanLaw c) {u m t : Live} (hm : Placed c u m)
    (h : Followed c m t) : AllFollowed c u t := by
  have hfollows : ∀ r, FollowsAt c u t r := fun r => followsAt_of_followed (hm.tx r) h
  refine ⟨hfollows, fun q r hd hlisten hp hs hfloor hoff => ?_⟩
  have hrecord := (h.view.records q).trans (hm.records q)
  have hholder := h.view.holder.trans hm.holder
  rw [← keyedAtHead_congr (l' := t) hrecord hholder (h.view.rings.trans hm.rings)]
  refine listener_keys hplan ((hfollows r).2.1 hd) ?_ ?_ ?_ hfloor hoff
  · rwa [listenMember_congr hrecord]
  · rwa [hholder]
  · rw [h.view.ctx, hm.source, hs]

/-! ### One floor put in place -/

/-- A state from which one patch's floor is put in place: its machines are those of a lawful state in which none has
anything to do, its claimants and the ports on its floors are TALK members. -/
structure Poised (c : Settings) (u l : Live) : Prop where
  view : SameView c u l
  tx : l.tx = u.tx
  claims : ∀ q, ∀ p ∈ claimantsOf l q, talkMember c u q p = true
  floors : ∀ q, ∀ p ∈ (ctxOf l q).floor, talkMember c u q p = true
  grants : GrantLaw u
  following : Following c u

/-- Putting a floor in place touches no receive machine but for its debounce of COR. -/
theorem rx_placeFloor (c : Settings) (q : Patch) (ctx : Context) (l : Live) (p : Port) :
    ∃ d, look (placeFloor c q ctx l).rx p = { look l.rx p with cor := d } := by
  by_cases h : EntersReading l q ctx p
  · rw [(look_placeFloor_entering c h).2]
    split
    · rw [freshCor, Live.setRx_rx, look_put_same]
      exact ⟨_, rfl⟩
    · exact ⟨_, rfl⟩
  · rw [(look_placeFloor_other c h).2]
    exact ⟨_, rfl⟩

theorem emg_placeFloor (c : Settings) (q : Patch) (ctx : Context) (l : Live) (p : Port) :
    (look (placeFloor c q ctx l).rx p).emg = (look l.rx p).emg := by
  obtain ⟨d, hd⟩ := rx_placeFloor c q ctx l p
  rw [hd]

theorem reads_congr_tx {l l' : Live} (h : l'.tx = l.tx) (p : Port) (q : Patch) : reads l' p q = reads l p q := by
  rw [reads, reads, h]

section

variable {c : Settings} {u l : Live} (h : Poised c u l) {q : Patch} {floor : List Port}
include h

theorem Poised.off_floor {p : Port} {r : Patch} (hreads : reads u p r = true) : p ∉ (ctxOf l r).floor := by
  intro hp
  rw [h.view.ctx] at hp
  have hgranted := h.grants p r (by simpa [onFloor] using hp)
  rw [hreads] at hgranted
  exact absurd hgranted (by decide)

theorem Poised.placed_self : Placed c u l :=
  ⟨h.view.records, h.view.holder, h.view.rings, fun q => by rw [h.view.ctx],
    fun p => .inl ⟨by rw [h.tx], fun _ => h.off_floor⟩⟩

theorem Poised.followed_self : Followed c l l := .of_following (Following.congr h.following h.view h.tx)

/-- The state with the floor put in place. -/
theorem Poised.placed : Placed c u (placeFloor c q { ctxOf l q with floor := floor } l) := by
  obtain ⟨hactive, hrings, -, -, hholder, -⟩ :=
    beyondFloors_fields (placeFloor_beyondFloors c q { ctxOf l q with floor := floor } l)
  refine ⟨fun r => (activeRecord_congr hactive c r).trans (h.view.records r), hholder.trans h.view.holder,
    hrings.trans h.view.rings, fun r => ?source, fun p => ?tx⟩
  case source =>
    rw [ctxOf_placeFloor]
    split
    · rename_i hr
      rw [h.view.ctx, hr]
    · rw [h.view.ctx]
  case tx =>
    by_cases he : EntersReading l q { ctxOf l q with floor := floor } p
    · refine .inr ⟨(look_placeFloor_entering c he).1, q, ?_, ?_⟩
      · rw [← reads_congr_tx h.tx]
        exact he.2.2
      · rw [ctxOf_placeFloor, if_pos rfl]
        exact he.1
    · refine .inl ⟨by rw [(look_placeFloor_other c he).1, h.tx], fun r hreads hp => ?_⟩
      rw [ctxOf_placeFloor] at hp
      split at hp
      · rename_i hr
        subst hr
        exact he ⟨hp, h.off_floor hreads, (reads_congr_tx h.tx p r).trans hreads⟩
      · exact h.off_floor hreads hp

variable (hplan : PlanLaw c) (hset : SettingsLaw c)
include hplan hset

/-- Away from the patch whose floor is put in place, no claimant is released. -/
theorem Poised.kept (hmembers : ∀ p ∈ floor, talkMember c u q p = true) {r : Patch} (hr : r ≠ q) {p : Port}
    (hp : p ∈ claimantsOf l r) : ¬ Released c (placeFloor c q { ctxOf l q with floor := floor } l) p := by
  intro hrel
  have hm := h.placed (q := q) (floor := floor)
  have htalk := h.claims r p hp
  obtain ⟨hd, hradio, hkeys⟩ := keysOn_of_released hplan hset (q := r)
    (by rw [memberIn_congr (hm.records r)]; exact isSome_of_talkMember htalk) hrel
  have hout : ¬ EntersReading l q { ctxOf l q with floor := floor } p := fun he =>
    hr (talkMember_unique hplan htalk (hmembers p he.1))
  rw [(look_placeFloor_other c hout).1, h.tx] at hd
  have hctx : ctxOf (placeFloor c q { ctxOf l q with floor := floor } l) r = ctxOf u r := by
    rw [ctxOf_placeFloor, if_neg hr, h.view.ctx]
  obtain ⟨hring, hactive⟩ := keysOn_iff.1 hkeys
  have hentitled : entitled c u p r = true :=
    (entitled_congr (hm.records r) hm.holder hctx p).symm.trans (entitled_of_entitledRing hring)
  have hbefore : keysOn c u p = some r := by
    refine keysOn_iff.2 ⟨entitledRing_of_entitled hplan hentitled, ?_⟩
    rwa [writerActive, hctx] at hactive
  rw [keysOn_none_of_following h.following hd] at hbefore
  exact absurd hbefore (by simp)

/-- After a floor is put in place one round of keyings is all: in MIX it holds the four lowest claimants. -/
theorem Poised.settles (hmembers : ∀ p ∈ floor, talkMember c u q p = true)
    (hselected : (ctxOf l q).mode = .mix → Granting l q → floor = fourLowest c l q) :
    settleKeys c (placeFloor c q { ctxOf l q with floor := floor } l) =
      sync c (placeFloor c q { ctxOf l q with floor := floor } l) := by
  have hm := h.placed (q := q) (floor := floor)
  have hbeyond := placeFloor_beyondFloors c q { ctxOf l q with floor := floor } l
  refine settleKeys_eq_sync fun r hmix hgrants => ?_
  by_cases hr : r = q
  · subst hr
    rw [Granting, ctxOf_placeFloor, if_pos rfl, beyondFloors_freezing hbeyond] at hgrants
    rw [ctxOf_placeFloor, if_pos rfl] at hmix ⊢
    have hfour : fourLowest c (placeFloor c r { ctxOf l r with floor := floor } l) r = fourLowest c l r :=
      fourLowest_congr (activeRecord_congr (beyondFloors_fields hbeyond).1 c r) (emg_placeFloor c r _ l)
        (claimantsOf_placeFloor ..)
        (by rw [ctxOf_placeFloor, if_pos rfl])
    refine .inr ⟨by rw [hfour, hselected hmix hgrants], fun p hp hrel => ?_⟩
    obtain ⟨-, hradio, hkeys⟩ := keysOn_of_released hplan hset (q := r)
      (by rw [memberIn_congr (hm.records r)]; exact isSome_of_talkMember (hmembers p hp)) hrel
    refine not_mem_floor_of_keysOn ?_ hradio hkeys ?_
    · rw [ctxOf_placeFloor, if_pos rfl]
      exact hgrants.1
    · rwa [ctxOf_placeFloor, if_pos rfl]
  · left
    intro p hp
    rw [claimantsOf_placeFloor] at hp
    exact h.kept hplan hset hmembers hr hp

end

/-- A floor installed from a state so poised: put in place, and followed in one round. -/
theorem Poised.installs {c : Settings} {u l : Live} (h : Poised c u l) (hplan : PlanLaw c) (hset : SettingsLaw c)
    {q : Patch} {floor : List Port} (hmembers : ∀ p ∈ floor, talkMember c u q p = true)
    (hselected : (ctxOf l q).mode = .mix → Granting l q → floor = fourLowest c l q) :
    ∃ m, Placed c u m ∧ Followed c m (installFloor c q floor l) := by
  refine ⟨_, h.placed (q := q) (floor := floor), ?_⟩
  rw [installFloor, install, h.settles hplan hset hmembers hselected]
  exact followed_sync c _

end Sys2Proof.Rounds

/-! SUPPORT. The events of a receive machine, and the statement on keying. -/

namespace Sys2Proof.FollowEvents

open Sys2Proof.Machine Sys2Proof.Safety Sys2Proof.Claims Sys2Proof.PlanLaws Sys2Proof.ResetOrders Sys2Proof.Deletions
  Sys2Proof.Signalling Sys2Proof.Keying Sys2Proof.LiveRuns Sys2Proof.ClaimSteps Sys2Proof.Follow Sys2Proof.Rounds

/-! ### Claims and releases by a port of a lawful state -/

/-- From one state to the other floors have been put in place, and all transmit machines have followed. -/
def FollowsTo (c : Settings) (u t : Live) : Prop := ∃ m, Placed c u m ∧ Followed c m t

theorem Poised.followsTo {c : Settings} {u l : Live} (h : Poised c u l) : FollowsTo c u l :=
  ⟨l, h.placed_self, h.followed_self⟩

theorem FollowsTo.congr {c : Settings} {u t t' : Live} (h : FollowsTo c u t) (hview : SameView c t t') (htx : t'.tx = t.tx) :
    FollowsTo c u t' := by
  obtain ⟨m, hm, ht⟩ := h
  exact ⟨m, hm, ht.view.trans hview, fun p => by rw [htx, ht.tx]⟩

theorem FollowsTo.raise {c : Settings} {u t : Live} (h : FollowsTo c u t) (src : Source) (e : Cond) :
    FollowsTo c u (t.raise src e) := h.congr (.of_fla rfl rfl rfl rfl) rfl

section

variable {c : Settings} {u : Live}

theorem poised_setRx (hclaims : ClaimLaw c u) (hgrants : GrantLaw u) (hfollows : Following c u) (p : Port) (x : RxPort) :
    Poised c u (u.setRx p x) :=
  ⟨.of_fla rfl rfl rfl rfl, rfl, fun q y hy => (hclaims.1 q y hy).1, fun q y hy => (hclaims.1 q y (hclaims.2 q y hy)).1,
    hgrants, hfollows⟩

theorem Poised.setClaimants {l : Live} (h : Poised c u l) {q : Patch} {ps : List Port}
    (hps : ∀ p ∈ ps, talkMember c u q p = true) : Poised c u (l.setClaimants q ps) := by
  refine ⟨h.view.trans ⟨fun _ => rfl, rfl, rfl, fun r => ctxOf_setClaimants l q r ps⟩, h.tx, fun r p hp => ?_,
    fun r p hp => ?_, h.grants, h.following⟩
  · rw [claimantsOf_setClaimants] at hp
    split at hp
    · rename_i hr
      exact hr ▸ hps p hp
    · exact h.claims r p hp
  · rw [ctxOf_setClaimants] at hp
    exact h.floors r p hp

variable (hplan : PlanLaw c) (hset : SettingsLaw c)
include hplan hset

theorem Poised.claim_follows {l : Live} (h : Poised c u l) (p : Port) : FollowsTo c u (claim c p l) := by
  unfold claim
  split
  · rename_i q _
    split
    · rename_i htalk
      rw [talkMember, memberIn_congr (h.view.records q)] at htalk
      have hentered : Poised c u (l.setClaimants q (addPort p (claimantsOf l q))) := by
        refine Poised.setClaimants h fun x hx => ?_
        rcases (mem_addPort _ _ _).1 hx with rfl | hx
        · exact htalk
        · exact h.claims q x hx
      refine hentered.installs hplan hset (fun x hx => ?_) fun hmix hgrants =>
        claimedFloor_granting hgrants hmix _ p
      rcases mem_of_mem_claimedFloor hx with rfl | hx | hx
      · exact htalk
      · exact hentered.claims q x hx
      · exact hentered.floors q x hx
    · exact Poised.followsTo h
  · exact Poised.followsTo h

theorem Poised.releaseIn_follows {l : Live} (h : Poised c u l) (p : Port) (q : Patch) :
    FollowsTo c u (releaseIn c p l q) := by
  have hleft : Poised c u (l.setClaimants q (dropPort p (claimantsOf l q))) :=
    Poised.setClaimants h fun x hx => h.claims q x ((mem_dropPort _ _ _).1 hx).1
  unfold releaseIn
  split
  · dsimp only
    split
    · refine hleft.installs hplan hset (fun x hx => ?_) fun hmix hgrants => refilledFloor_granting hgrants hmix _
      rcases mem_of_mem_refilledFloor hx with hx | hx
      · exact hleft.claims q x hx
      · exact h.floors q x ((mem_dropPort _ _ _).1 hx).1
    · exact Poised.followsTo hleft
  · exact Poised.followsTo h

omit hplan hset in
theorem foldl_releaseIn_of_claims_none {l : Live} {p : Port} (qs : List Patch) (h : ∀ q, p ∉ claimantsOf l q) :
    qs.foldl (releaseIn c p) l = l := by
  induction qs with
  | nil => rfl
  | cons q qs ih =>
    have hq : releaseIn c p l q = l := by rw [releaseIn, if_neg (by simpa using h q)]
    rw [List.foldl_cons, hq, ih]

omit hplan hset in
/-- A port that claims in one patch at most is released there alone. -/
theorem foldl_releaseIn_of_claims_once {l : Live} {p : Port} {q : Patch} (qs : List Patch)
    (h : ∀ r, p ∈ claimantsOf l r → r = q) :
    qs.foldl (releaseIn c p) l = l ∨ qs.foldl (releaseIn c p) l = releaseIn c p l q := by
  induction qs with
  | nil => exact .inl rfl
  | cons r qs ih =>
    rw [List.foldl_cons]
    rcases releaseIn_cases c p l r with ⟨-, hsame⟩ | ⟨hin, hgone, hrun⟩
    · rwa [hsame]
    · obtain rfl := h r hin
      refine .inr (foldl_releaseIn_of_claims_none qs fun x => ?_)
      by_cases hx : x = r
      · rw [hx]
        exact hgone.1
      · rw [hrun.tuned.claims x, claimantsOf_setClaimants, if_neg hx]
        exact fun hp => hx (h x (List.mem_filter.1 hp).1)

theorem Poised.release_follows {l : Live} (h : Poised c u l) (p : Port) : FollowsTo c u (release c p l) := by
  by_cases hnone : ∀ q, p ∉ claimantsOf l q
  · rw [release, foldl_releaseIn_of_claims_none _ hnone]
    exact Poised.followsTo h
  · simp only [not_forall, not_not] at hnone
    obtain ⟨q, hq⟩ := hnone
    have honce : ∀ r, p ∈ claimantsOf l r → r = q := fun r hr =>
      talkMember_unique hplan (h.claims r p hr) (h.claims q p hq)
    rw [release]
    rcases foldl_releaseIn_of_claims_once (c := c) allPatches honce with hsame | hreleased
    · rw [hsame]
      exact Poised.followsTo h
    · rw [hreleased]
      exact Poised.releaseIn_follows hplan hset h p q

/-! ### The events of a receive machine -/

variable (hclaims : ClaimLaw c u) (hgrants : GrantLaw u) (hfollows : Following c u)
include hclaims hgrants hfollows

theorem corRise_follows (p : Port) : FollowsTo c u (corRise p c u) := by
  have hset_rx := fun x => poised_setRx hclaims hgrants hfollows p x
  by_cases hi : Ignored c u p
  · cases hd : (look c.ports p).duplex with
    | full =>
      rw [corRise_of_loop hi hd]
      exact FollowsTo.raise (Poised.followsTo (hset_rx { look u.rx p with cor := atLevel true })) _ _
    | half =>
      rw [corRise_of_half hi hd]
      exact Poised.followsTo (hset_rx _)
  · by_cases hq : (look u.rx p).rx = .quiet
    · rw [corRise_of_quiet hi hq]
      exact Poised.claim_follows hplan hset (hset_rx _) p
    · rw [corRise_of_not_quiet hi hq]
      exact Poised.followsTo (hset_rx _)

theorem corFall_follows (p : Port) : FollowsTo c u (corFall p c u) := by
  have hset_rx := fun x => poised_setRx hclaims hgrants hfollows p x
  by_cases hi : Ignored c u p
  · rw [corFall_of_ignored hi]
    exact Poised.followsTo (hset_rx _)
  · rw [corFall_of_heard hi]
    cases hrx : (look u.rx p).rx with
    | quiet =>
      rw [receiveFall_of_quiet (by rw [Live.setRx_rx, look_put_same, hrx])]
      exact Poised.followsTo (hset_rx _)
    | active =>
      rw [receiveFall_of_active (by rw [Live.setRx_rx, look_put_same, hrx]), setRx_setRx]
      exact Poised.release_follows hplan hset (hset_rx _) p
    | lockout =>
      rw [receiveFall_of_lockout (by rw [Live.setRx_rx, look_put_same, hrx]), setRx_setRx]
      exact Poised.followsTo (hset_rx _)

theorem talkTimeUp_follows (p : Port) : FollowsTo c u (talkTimeUp p c u) := by
  rw [talkTimeUp_eq]
  exact FollowsTo.raise (Poised.release_follows hplan hset (poised_setRx hclaims hgrants hfollows p _) p) _ _

end

/-- How the machines follow an event, with no switch pending: recording conditions touches none of it. -/
theorem happens_of_follows {i : Instr} {s : State} {due : Bool} {f : Settings → Live → Live}
    (hi : exec i s = .next (takeEvent due f s)) (hd : due = true) (hswitch : s.live.switch.state = .none)
    (hplan : PlanLaw s.cfg) (hcalm : SameControl (catchUp s).live (f s.cfg (catchUp s).live))
    (hfollows : FollowsTo s.cfg (catchUp s).live (f s.cfg (catchUp s).live)) :
    Happens i s (catchUp s) (AllFollowed s.cfg (catchUp s).live) := by
  have hcaught : (catchUp s).live.switch = s.live.switch := by
    rw [catchUp_live]
    obtain ⟨-, -, -, -, -, -, -, -, hsame, -⟩ := catchUpLive_rest s.cfg s.live
    exact hsame
  have hpending : switchPending (f s.cfg (catchUp s).live) = false :=
    switchPending_false (by rw [hcalm.switch, hcaught, hswitch])
  refine ⟨closeEvent s.cfg (f s.cfg (catchUp s).live), ?_, ?_⟩
  · rw [catchUp_cfg]
    exact endsWith_of_due hi hd rfl
  · rw [closeEvent_notPending _ _ hpending]
    obtain ⟨m, hm, ht⟩ := FollowsTo.congr (t' := recordRaised s.cfg (f s.cfg (catchUp s).live)) hfollows
      (.of_fla (recordRaised_active _ _) (recordRaised_guestHolder _ _) (recordRaised_rings _ _) (recordRaised_fla _ _))
      (recordRaised_tx _ _)
    exact allFollowed_of_placed hplan hm ht

theorem allFollowed_of_event {p : Port} {i : Instr} {s : State}
    (hi : i ∈ [Instr.corSettledRise p, .corSettledFall p, .talkTimeExpiry p]) (hdue : EventDue s i)
    (hswitch : s.live.switch.state = .none) (hplan : PlanLaw s.cfg) (hset : SettingsLaw s.cfg)
    (hclaims : ClaimLaw s.cfg (catchUp s).live) (hgrants : GrantLaw (catchUp s).live)
    (hfollows : Following s.cfg (catchUp s).live) :
    Happens i s (catchUp s) (AllFollowed s.cfg (catchUp s).live) := by
  have hlaw : Lawful s.cfg := ⟨hplan, hset⟩
  rcases List.mem_cons.1 hi with rfl | hi
  · exact happens_of_follows (f := corRise p) rfl (beq_iff_eq.2 hdue) hswitch hplan (corRise_calm hlaw p _).control
      (corRise_follows hplan hset hclaims hgrants hfollows p)
  rcases List.mem_cons.1 hi with rfl | hi
  · exact happens_of_follows (f := corFall p) rfl (beq_iff_eq.2 hdue) hswitch hplan (corFall_calm hlaw p _).control
      (corFall_follows hplan hset hclaims hgrants hfollows p)
  · obtain rfl := List.mem_singleton.1 hi
    refine happens_of_follows (f := talkTimeUp p) rfl ?_ hswitch hplan (talkTimeUp_calm hlaw p _).control
      (talkTimeUp_follows hplan hset hclaims hgrants hfollows p)
    rw [rxActive, hdue.1, expired_of_zero hdue.2]
    rfl

/-! ### The statement on keying, part by part -/

theorem entitled_as_stated (c : Settings) (l : Live) (p : Port) (q : Patch) :
    ((ctxOf l q).source = .alert → (entitled c l p q = true ↔ (memberIn c l q p).isSome = true ∧ p.val < 16)) ∧
    ((ctxOf l q).source = .receive → p.val < 16 ∨ l.guestHolder = none →
      (entitled c l p q = true ↔ p ∉ (ctxOf l q).floor ∧ ∃ m, memberIn c l q p = some m ∧ m.listen = true)) ∧
    ((ctxOf l q).source = .receive → 16 ≤ p.val → l.guestHolder ≠ none →
      (entitled c l p q = true ↔ p ∉ (ctxOf l q).floor ∧ (activeRecord c l q).valid = true ∧
        l.guestHolder = some q)) := by
  refine ⟨entitled_alert_iff, fun hs hp => ?_, entitled_guest_iff⟩
  rw [entitled_listen_iff hs hp, listenMember_iff]

theorem sync_as_stated (c : Settings) (l : Live) :
    (∀ p : Port, look (sync c l).tx p = look (syncPort c l p).tx p ∧
      look (sync c l).rx p = look (syncPort c l p).rx p) ∧
    (∀ q : Patch, ctxOf (sync c l) q = ctxOf l q ∧ (look (sync c l).fla q).freezing = (look l.fla q).freezing ∧
      claimantsOf (sync c l) q =
        (claimantsOf l q).filter (fun y => decide ((look (sync c l).rx y).rx = (look l.rx y).rx))) ∧
    { sync c l with tx := l.tx, rx := l.rx, fla := l.fla } = l := by
  have hbeyond := sync_beyondFloors c l
  refine ⟨fun p => ⟨?_, ?_⟩, fun q => ⟨(sync_view c l).ctx q, beyondFloors_freezing hbeyond q,
    (sync_run c l).tuned.claims q⟩, restore_of_beyondFloors hbeyond⟩
  · rw [look_sync_tx, syncPort_tx, look_put_same]
  · rw [look_sync_rx, syncPort_rx, look_put_same]

theorem placeFloor_as_stated (c : Settings) (l : Live) (q : Patch) (ctx : Context) :
    let t := placeFloor c q ctx l
    install c q ctx l = settleKeys c t ∧ { t with tx := l.tx, rx := l.rx, fla := l.fla } = l ∧
    (∀ r : Patch, look t.fla r = { look l.fla r with ctx := if r = q then ctx else ctxOf l r }) ∧
    ∀ p : Port,
      (EntersReading l q ctx p → look t.tx p = TxPort.dormant ∧
        look t.rx p = look (if Ignored c l p then freshCor p l else l).rx p) ∧
      (¬ EntersReading l q ctx p → look t.tx p = look l.tx p ∧ look t.rx p = look l.rx p) :=
  ⟨rfl, restore_of_beyondFloors (placeFloor_beyondFloors c q ctx l), fun r => look_placeFloor_fla c l q r ctx,
    fun _ => ⟨look_placeFloor_entering c, look_placeFloor_other c⟩⟩

section

variable {c : Settings} {l : Live} {p : Port}

/-- What a keying that follows does to the port, its claims and the other ports (R34, R67). -/
theorem syncPort_keying {q : Patch} (hd : (look l.tx p).state = .dormant) (hring : entitledRing c l p = some q)
    (hactive : writerActive l q = true) :
    look (syncPort c l p).tx p = keyedAtHead c l q p ∧
    look (syncPort c l p).rx p = rxAsKeyed c p (look l.rx p) ∧
    (let x := look l.rx p
     let ignores := (look c.ports p).duplex = .half ∨ (look c.ports p).rxlo = true
     (ignores → x.rx = .active → ∀ r : Patch,
       claimantsOf (syncPort c l p) r = (claimantsOf l r).filter (fun y => y ≠ p) ∧
         ctxOf (syncPort c l p) r = ctxOf l r) ∧
     (¬ (ignores ∧ x.rx = .active) → (syncPort c l p).fla = l.fla) ∧
     ∀ r : Port, r ≠ p → look (syncPort c l p).tx r = look l.tx r ∧ look (syncPort c l p).rx r = look l.rx r) := by
  rw [syncPort_keys hd (keysOn_iff.2 ⟨hring, hactive⟩), key_tx, key_rx, look_put_same, look_put_same, keyedAtHead_eq]
  refine ⟨rfl, rfl, fun hi ha r => ⟨key_of_ignoring_active hi ha .., ctxOf_key ..⟩, fun h => key_fla_of_not h .., ?_⟩
  intro r hr
  rw [look_put_ne _ _ _ _ hr, look_put_ne _ _ _ _ hr]
  exact ⟨rfl, rfl⟩

/-- How a reader follows its entitlement (R70, R72). -/
theorem syncPort_reading {r : Reader} (hk : keyed (look l.tx p) = true) (hr : (look l.tx p).reader = some r) :
    (entitled c l p r.ring = true → (look l.tx p).state = .hang → writerActive l r.ring = true →
      syncPort c l p = l.setTx p { look l.tx p with
        state := .onAir, hang := none
        reader := some { r with cursor := (look l.rings r.ring).head, endMark := none } }) ∧
    (entitled c l p r.ring = true → (look l.tx p).state ≠ .hang ∨ writerActive l r.ring = false →
      syncPort c l p = l.setTx p { look l.tx p with reader := some { r with endMark := none } }) ∧
    (entitled c l p r.ring = false → r.endMark = none →
      syncPort c l p = l.setTx p { look l.tx p with
        reader := some { r with endMark := some (look l.rings r.ring).head } }) ∧
    (entitled c l p r.ring = false → r.endMark ≠ none → syncPort c l p = l) := by
  rw [syncPort_reader hk hr]
  refine ⟨fun he hs hw => by rw [followed_returns he hs hw], fun he hs => ?_, fun he hm => ?_, fun he hm => ?_⟩
  · rw [followed_entitled he]
    rintro ⟨hhang, hactive⟩
    rcases hs with hs | hs
    · exact hs hhang
    · rw [hactive] at hs
      exact absurd hs (by decide)
  · rw [followed_unentitled he, hm, Option.getD_none]
  · obtain ⟨e, hmark⟩ := Option.ne_none_iff_exists'.1 hm
    rw [followed_unentitled he, hmark, Option.getD_some]
    refine setTx_same ?_
    rw [← hmark, ← hr]

theorem guest_as_stated (q : Patch) :
    ((look l.tx p).state ≠ .dormant ∨ (ctxOf l q).source = .alert ∨ p ∈ (ctxOf l q).floor → guestKey c q l p = l) ∧
    ((look l.tx p).state = .dormant → (ctxOf l q).source = .receive → p ∉ (ctxOf l q).floor →
      look (guestKey c q l p).tx p =
        { state := .keying
          reader := some { ring := q, cursor := (look l.rings q).head, endMark := none }
          keyUp := some 1
          hang := none
          confirm := if (look c.ports p).confirm = 0 then none else some (max 1 (8 * (look c.ports p).confirm))
          hangDue := false
          sample := 0 }) ∧
    (l.guestHolder ≠ some q → pauseGuests c q l = l) ∧
    (l.guestHolder = some q → 16 ≤ p.val →
      (reads l p q = true → (look (pauseGuests c q l).tx p).state = .dormant) ∧
      (reads l p q = false → look (pauseGuests c q l).tx p = look l.tx p)) := by
  refine ⟨guestKey_waits, fun hd hs hp => ?_, fun hq => if_neg hq, fun hq hp => ⟨fun hr => ?_, fun hr => ?_⟩⟩
  · rw [guestKey_keys hd hs hp, key_tx, look_put_same]
    rfl
  · rw [look_pauseGuests_tx hq hp, if_pos hr]
    rfl
  · rw [look_pauseGuests_tx hq hp, hr, if_neg (by decide)]

end

/-- Settles O50: how one transmit machine follows, then all of them, then the selections made again; and that after an
event of a receive machine one round of it is enough. -/
theorem keyingFollowsTheFloors : Obligations.KeyingFollowsTheFloors := by
  refine ⟨entitled_as_stated, fun _ _ => rfl, sync_as_stated, fun c l n => ?handOn, placeFloor_as_stated,
    fun p i s hi hdue hswitch => ?event, fun c l p => ?port⟩
  case handOn =>
    exact ⟨rfl, rfl, fun h => handOn_settled h (n + 1), fun q hq hfirst => handOn_again hq hfirst n,
      handOn_following n c l⟩
  case event =>
    exact fun hplan hset hclaims hgrants hfollows =>
      allFollowed_of_event hi hdue hswitch hplan hset hclaims hgrants hfollows
  case port =>
    exact ⟨syncPort_fault, fun hd hquiet => syncPort_waits hd (keysOn_none_iff.2 hquiet),
      fun q hd hring hactive => syncPort_keying hd hring hactive,
      fun r hs hr => syncPort_reading (keyed_iff.2 hs) hr, guest_as_stated⟩

end Sys2Proof.FollowEvents

/-! SUPPORT. The state from which a swap arbitrates: readers cut, patches started afresh, ports freed from FAULT. -/

namespace Sys2Proof.SwapStart

open Sys2Proof.Machine Sys2Proof.Safety Sys2Proof.Claims Sys2Proof.Patches Sys2Proof.ResetOrders Sys2Proof.Deletions
  Sys2Proof.Signalling Sys2Proof.Keying Sys2Proof.LiveRuns Sys2Proof.ClaimSteps Sys2Proof.Follow Sys2Proof.Rounds

/-! ### Readers cut -/

theorem reads_of_look {l l' : Live} {p : Port} (h : look l'.tx p = look l.tx p) (q : Patch) :
    reads l' p q = reads l p q := by
  rw [reads, h, reads]

theorem reads_dormant {l : Live} {p : Port} (h : look l.tx p = TxPort.dormant) (q : Patch) : reads l p q = false := by
  rw [reads, h]
  rfl

theorem foldl_unkeyReader (c : Settings) (q : Patch) (ps : List Port) (hps : ps.Nodup) (l : Live)
    (h : ∀ p ∈ ps, reads l p q = true) : ps.foldl (unkeyReader c) l = ps.foldl (unkeyIfReads c q) l := by
  induction ps generalizing l with
  | nil => rfl
  | cons x ps ih =>
    obtain ⟨hx, hps⟩ := List.nodup_cons.1 hps
    have hfirst := h x List.mem_cons_self
    have hstep : unkeyReader c l x = unkeyIfReads c q l x := by rw [unkeyReader, unkeyIfReads, if_pos hfirst]
    rw [List.foldl_cons, List.foldl_cons, hstep]
    refine ih hps _ fun p hp => ?_
    have hne : p ≠ x := fun he => hx (he ▸ hp)
    rw [unkeyIfReads_of_reads hfirst, reads_leaveKeyed _ _ _ _ (.inl rfl), h p (List.mem_cons_of_mem _ hp)]
    simp [hne]

theorem mem_readersOf {l : Live} {q : Patch} {p : Port} : p ∈ readersOf l q ↔ reads l p q = true := by
  simp [readersOf]

theorem cutPatch_eq (c : Settings) (l : Live) (q : Patch) :
    cutPatch c l q =
      emptyRing q ((readersOf l q).foldl (unkeyIfReads c q) (l.setCtx q { ctxOf l q with floor := [] })) := by
  have hreaders : readersOf (l.setCtx q { ctxOf l q with floor := [] }) q = readersOf l q := rfl
  have hnodup : (readersOf l q).Nodup := List.Nodup.filter _ allPorts_nodup
  rw [cutPatch, hreaders]
  dsimp only
  exact congrArg (emptyRing q) (foldl_unkeyReader c q _ hnodup _ fun p hp => mem_readersOf.1 hp)

theorem cutPatch_reader (c : Settings) {l : Live} {q : Patch} {p : Port} (h : reads l p q = true) :
    look (cutPatch c l q).tx p = TxPort.dormant ∧
      look (cutPatch c l q).rx p = look (if Ignored c l p then freshCor p l else l).rx p := by
  have hfold : p ∈ readersOf l q ∧ reads (l.setCtx q { ctxOf l q with floor := [] }) p q = true :=
    ⟨mem_readersOf.2 h, h⟩
  rw [cutPatch_eq, emptyRing, Live.setRing_tx, Live.setRing_rx, look_foldl_unkeyIfReads_tx, look_foldl_unkeyIfReads_rx,
    if_pos hfold, if_pos hfold]
  exact ⟨rfl, look_freshCor c rfl rfl⟩

theorem cutPatch_other (c : Settings) {l : Live} {q : Patch} {p : Port} (h : reads l p q = false) :
    look (cutPatch c l q).tx p = look l.tx p ∧ look (cutPatch c l q).rx p = look l.rx p := by
  have hfold : ¬ (p ∈ readersOf l q ∧ reads (l.setCtx q { ctxOf l q with floor := [] }) p q = true) := fun hp => by
    rw [mem_readersOf.1 hp.1] at h
    exact absurd h (by decide)
  rw [cutPatch_eq, emptyRing, Live.setRing_tx, Live.setRing_rx, look_foldl_unkeyIfReads_tx, look_foldl_unkeyIfReads_rx,
    if_neg hfold, if_neg hfold]
  exact ⟨rfl, rfl⟩

/-- What a swap or a cut leaves outside its patches: floors and rings, and everywhere the heads of the rings. -/
structure SameOutside (qs : List Patch) (l m : Live) : Prop where
  holder : m.guestHolder = l.guestHolder
  fla : ∀ q, q ∉ qs → look m.fla q = look l.fla q
  rings : ∀ q, q ∉ qs → look m.rings q = look l.rings q
  heads : ∀ q, (look m.rings q).head = (look l.rings q).head

theorem SameOutside.refl (qs : List Patch) (l : Live) : SameOutside qs l l :=
  ⟨rfl, fun _ _ => rfl, fun _ _ => rfl, fun _ => rfl⟩

theorem SameOutside.trans {qs : List Patch} {a b d : Live} (h : SameOutside qs a b) (k : SameOutside qs b d) :
    SameOutside qs a d :=
  ⟨k.holder.trans h.holder, fun q hq => (k.fla q hq).trans (h.fla q hq), fun q hq => (k.rings q hq).trans (h.rings q hq),
    fun q => (k.heads q).trans (h.heads q)⟩

theorem SameOutside.foldl {qs : List Patch} {f : Live → Patch → Live}
    (hf : ∀ l, ∀ q ∈ qs, SameOutside qs l (f l q)) (l : Live) : SameOutside qs l (qs.foldl f l) :=
  foldl_keeps_mem (fun m => SameOutside qs l m) f qs (fun m q hq h => h.trans (hf m q hq)) l (.refl qs l)

theorem emptyRing_outside {qs : List Patch} {q : Patch} (hq : q ∈ qs) (l : Live) : SameOutside qs l (emptyRing q l) := by
  refine ⟨rfl, fun _ _ => rfl, fun r hr => ?_, fun r => ?_⟩
  · rw [emptyRing, Live.setRing_rings, look_put_ne]
    rintro rfl
    exact hr hq
  · rw [emptyRing, Live.setRing_rings, look_put]
    split
    · rename_i he
      rw [he]
    · rfl

theorem cutPatch_outside (c : Settings) {qs : List Patch} {q : Patch} (hq : q ∈ qs) (l : Live) :
    SameOutside qs l (cutPatch c l q) := by
  have hbeyond : ((readersOf l q).foldl (unkeyIfReads c q) (l.setCtx q { ctxOf l q with floor := [] })).beyondFloors =
      l.beyondFloors :=
    (foldl_unkeyIfReads_run c q _ _).tuned.rest.trans (Live.setCtx_beyondFloors ..)
  obtain ⟨-, hrings, -, -, hholder, -⟩ := beyondFloors_fields hbeyond
  rw [cutPatch_eq]
  refine SameOutside.trans ⟨hholder, fun r hr => ?_, fun r _ => by rw [hrings], fun r => by rw [hrings]⟩
    (emptyRing_outside hq _)
  rw [foldl_unkeyIfReads_fla, Live.setCtx_fla, look_put_ne]
  rintro rfl
  exact hr hq

theorem cutPatch_active (c : Settings) (l : Live) (q : Patch) : (cutPatch c l q).active = l.active := by
  rw [cutPatch_eq, emptyRing, Live.setRing_active,
    (beyondFloors_fields (foldl_unkeyIfReads_run c q _ _).tuned.rest).1, Live.setCtx_active]

/-- What cutting some patches does to the machines of the ports: each reader of their rings is DORMANT, with a fresh
debounce begun where its COR was ignored; the others stay (R35, R73, R124). -/
structure Cut (c : Settings) (qs : List Patch) (l m : Live) : Prop where
  readers : ∀ p, (∃ q ∈ qs, reads l p q = true) → look m.tx p = TxPort.dormant ∧
    look m.rx p = look (if Ignored c l p then freshCor p l else l).rx p
  others : ∀ p, (∀ q ∈ qs, reads l p q = false) → look m.tx p = look l.tx p ∧ look m.rx p = look l.rx p

theorem foldl_cutPatch_cuts (c : Settings) (qs : List Patch) (l : Live) : Cut c qs l (qs.foldl (cutPatch c) l) := by
  induction qs generalizing l with
  | nil => exact ⟨fun _ ⟨_, hq, _⟩ => absurd hq List.not_mem_nil, fun _ _ => ⟨rfl, rfl⟩⟩
  | cons x qs ih =>
    have hrest := ih (cutPatch c l x)
    refine ⟨fun p ⟨q, hq, hreads⟩ => ?_, fun p hp => ?_⟩
    · by_cases hx : reads l p x = true
      · obtain ⟨htx, hrx⟩ := cutPatch_reader c hx
        obtain ⟨rtx, rrx⟩ := hrest.others p fun r _ => reads_dormant htx r
        exact ⟨rtx.trans htx, rrx.trans hrx⟩
      · obtain ⟨htx, hrx⟩ := cutPatch_other c (Bool.not_eq_true _ ▸ hx)
        have hmem : q ∈ qs := (List.mem_cons.1 hq).resolve_left fun he => hx (he ▸ hreads)
        obtain ⟨rtx, rrx⟩ := hrest.readers p ⟨q, hmem, (reads_of_look htx q).trans hreads⟩
        exact ⟨rtx, rrx.trans (look_freshCor c htx hrx)⟩
    · obtain ⟨htx, hrx⟩ := cutPatch_other c (hp x List.mem_cons_self)
      obtain ⟨rtx, rrx⟩ := hrest.others p fun q hq =>
        (reads_of_look htx q).trans (hp q (List.mem_cons_of_mem _ hq))
      exact ⟨rtx.trans htx, rrx.trans hrx⟩

/-! ### Patches started afresh -/

theorem startFresh_outside (c : Settings) {qs : List Patch} {q : Patch} (hq : q ∈ qs) (l : Live) :
    SameOutside qs l (startFresh c l q) := by
  rw [startFresh]
  refine SameOutside.trans (b := defaultFloor c l q) ⟨rfl, fun r hr => ?_, fun _ _ => rfl, fun _ => rfl⟩ (emptyRing_outside hq _)
  rw [defaultFloor, Live.setFloor_fla, look_put_ne]
  rintro rfl
  exact hr hq

theorem startFresh_at (c : Settings) (l : Live) (q : Patch) :
    look (startFresh c l q).fla q = FloorState.default (activeRecord c l q).mode ∧
      look (startFresh c l q).rings q = { store := [], head := (look l.rings q).head } := by
  rw [startFresh, emptyRing, Live.setRing_fla, Live.setRing_rings, defaultFloor, Live.setFloor_fla, look_put_same,
    look_put_same, Live.setFloor_rings]
  exact ⟨rfl, rfl⟩

/-- Patches have been started afresh: default floor states, empty rings (R44, R58, R65). -/
structure Fresh (c : Settings) (qs : List Patch) (l m : Live) : Prop where
  active : m.active = l.active
  tx : m.tx = l.tx
  rx : m.rx = l.rx
  outside : SameOutside qs l m
  inside : ∀ q ∈ qs, look m.fla q = FloorState.default (activeRecord c m q).mode ∧
    look m.rings q = { store := [], head := (look l.rings q).head }

theorem foldl_startFresh_fresh (c : Settings) (qs : List Patch) (l : Live) :
    Fresh c qs l (qs.foldl (startFresh c) l) := by
  have houtside := SameOutside.foldl (qs := qs) (f := startFresh c) (fun m q hq => startFresh_outside c hq m) l
  have hkept := foldl_keeps (fun m : Live => m.active = l.active ∧ m.tx = l.tx ∧ m.rx = l.rx) (startFresh c)
    (fun _ _ ⟨hactive, htx, hrx⟩ => ⟨hactive, htx, hrx⟩) qs l ⟨rfl, rfl, rfl⟩
  obtain ⟨hactive, htx, hrx⟩ := hkept
  refine ⟨hactive, htx, hrx, houtside, fun q hq => ?_⟩
  have hreset : ∀ (rs : List Patch) (m : Live), q ∈ rs ∨ (look m.fla q = FloorState.default (activeRecord c m q).mode ∧
      (look m.rings q).store = []) →
      look (rs.foldl (startFresh c) m).fla q = FloorState.default (activeRecord c (rs.foldl (startFresh c) m) q).mode ∧
        (look (rs.foldl (startFresh c) m).rings q).store = [] := by
    intro rs
    induction rs with
    | nil => exact fun m hm => hm.resolve_left List.not_mem_nil
    | cons r rs ih =>
      intro m hm
      rw [List.foldl_cons]
      refine ih (startFresh c m r) ?_
      by_cases hr : q = r
      · subst hr
        obtain ⟨hfla, hrings⟩ := startFresh_at c m q
        exact .inr ⟨hfla, by rw [hrings]⟩
      · have hout := startFresh_outside c (List.mem_singleton.2 rfl) (q := r) m
        have hnot : q ∉ [r] := by simpa using hr
        rw [hout.fla q hnot, hout.rings q hnot]
        exact hm.imp_left fun h => (List.mem_cons.1 h).resolve_left hr
  obtain ⟨hfla, hstore⟩ := hreset qs l (.inl hq)
  refine ⟨hfla, ?_⟩
  rw [← houtside.heads q, ← hstore]

/-! ### Ports freed from FAULT -/

/-- A transmit machine as a swap frees it from FAULT (R125 step 3). -/
def freedTx (clears : Bool) (t : TxPort) : TxPort := if clears = true ∧ t.state = .fault then TxPort.dormant else t

theorem swapFault_eq (c : Settings) (qs : List Patch) (l : Live) (p : Port) :
    swapFault c qs l p = l.setTx p (freedTx (swapClearsFault c qs l p) (look l.tx p)) := by
  by_cases hc : swapClearsFault c qs l p = true
  · by_cases hf : (look l.tx p).state = .fault
    · rw [swapFault, if_pos hc, clearFault, if_pos hf, freedTx, if_pos ⟨hc, hf⟩]
    · rw [swapFault, if_pos hc, clearFault, if_neg hf, freedTx, if_neg fun h => hf h.2, setTx_same rfl]
  · rw [swapFault, if_neg hc, freedTx, if_neg fun h => hc h.1, setTx_same rfl]

theorem portPatch_congr {c : Settings} {l l' : Live} (h : ∀ q, activeRecord c l' q = activeRecord c l q) (p : Port) :
    portPatch c l' p = portPatch c l p := by
  simp only [portPatch, memberIn_congr (h _)]

theorem swapClearsFault_congr {c : Settings} {l l' : Live} (h : l'.active = l.active) (qs : List Patch) (p : Port) :
    swapClearsFault c qs l' p = swapClearsFault c qs l p := by
  rw [swapClearsFault, portPatch_congr (activeRecord_congr h c), swapClearsFault]

theorem foldl_swapFault (c : Settings) (qs : List Patch) (l : Live) :
    allPorts.foldl (swapFault c qs) l = { l with tx := mapTable (fun p => freedTx (swapClearsFault c qs l p)) l.tx } := by
  have hsteps : ∀ (ps : List Port) (m : Live), m.active = l.active → ps.foldl (swapFault c qs) m =
      ps.foldl (fun m p => m.setTx p (freedTx (swapClearsFault c qs l p) (look m.tx p))) m := by
    intro ps
    induction ps with
    | nil => exact fun _ _ => rfl
    | cons p ps ih =>
      intro m hm
      rw [List.foldl_cons, List.foldl_cons, swapFault_eq, swapClearsFault_congr hm]
      exact ih _ hm
  rw [hsteps allPorts l rfl]
  exact foldl_setTx_allPorts _ l

/-! ### The state from which a swap arbitrates -/

/-- A swap up to its arbitrations: the banks flipped, the involved patches started afresh, affected ports freed from
FAULT (R125 steps 1 to 3). -/
def swapBegun (c : Settings) (involved : List Patch) (l : Live) : Live :=
  allPorts.foldl (swapFault c involved) (involved.foldl (startFresh c) (flipBanks l))

theorem swap_eq (c : Settings) (involved : List Patch) (outcome : LastOutcome) (l : Live) :
    swap c involved outcome l =
      (endSwitch involved outcome (involved.foldl (arbitrateFresh c) (swapBegun c involved l))).raise systemSource
        .switchDone := rfl

/-- A port is freed from FAULT by a swap whose arbitrations start from a state. -/
def Freed (c : Settings) (involved : List Patch) (l b : Live) (p : Port) : Prop :=
  (look l.tx p).state = .fault ∧ swapClearsFault c involved b p = true

/-- What the arbitrations of a swap start from, from the state before the swap and, in a forced switch, before the cut:
floors, rings and the machines of the ports. -/
structure Begun (c : Settings) (involved : List Patch) (forced : Bool) (l b : Live) : Prop where
  active : b.active = otherBank l.active
  outside : SameOutside involved l b
  inside : ∀ q ∈ involved, look b.fla q = FloorState.default (activeRecord c b q).mode ∧
    look b.rings q = { store := [], head := (look l.rings q).head }
  freed : ∀ p, Freed c involved l b p → look b.tx p = TxPort.dormant ∧ look b.rx p = look l.rx p
  cut : forced = true → ∀ p, (∃ q ∈ involved, reads l p q = true) → look b.tx p = TxPort.dormant ∧
    look b.rx p = look (if Ignored c l p then freshCor p l else l).rx p
  kept : ∀ p, ¬ Freed c involved l b p → (forced = true → ∀ q ∈ involved, reads l p q = false) →
    look b.tx p = look l.tx p ∧ look b.rx p = look l.rx p

theorem not_reads_of_fault {l : Live} {p : Port} (h : (look l.tx p).state = .fault) (q : Patch) :
    reads l p q = false := by
  simp [reads, keyed, h]

theorem swapBegun_tx (c : Settings) (involved : List Patch) (l : Live) (p : Port) :
    look (swapBegun c involved l).tx p = freedTx (swapClearsFault c involved (swapBegun c involved l) p) (look l.tx p) := by
  have hfresh := foldl_startFresh_fresh c involved (flipBanks l)
  rw [swapBegun, foldl_swapFault]
  dsimp only
  rw [look_mapTable, hfresh.tx]
  rfl

theorem swapBegun_fresh (c : Settings) (involved : List Patch) (l : Live) :
    (swapBegun c involved l).active = otherBank l.active ∧ (swapBegun c involved l).rx = l.rx ∧
      SameOutside involved l (swapBegun c involved l) ∧
      ∀ q ∈ involved,
        look (swapBegun c involved l).fla q = FloorState.default (activeRecord c (swapBegun c involved l) q).mode ∧
        look (swapBegun c involved l).rings q = { store := [], head := (look l.rings q).head } := by
  obtain ⟨hactive, htx, hrx, houtside, hinside⟩ := foldl_startFresh_fresh c involved (flipBanks l)
  rw [swapBegun, foldl_swapFault]
  exact ⟨hactive, hrx, ⟨houtside.holder, houtside.fla, houtside.rings, houtside.heads⟩, hinside⟩

theorem begun_unforced (c : Settings) (involved : List Patch) (l : Live) :
    Begun c involved false l (swapBegun c involved l) := by
  obtain ⟨hactive, hrx, houtside, hinside⟩ := swapBegun_fresh c involved l
  refine ⟨hactive, houtside, hinside, fun p hp => ⟨?_, by rw [hrx]⟩, fun h => absurd h (by decide),
    fun p hp _ => ⟨?_, by rw [hrx]⟩⟩
  · rw [swapBegun_tx, freedTx, if_pos ⟨hp.2, hp.1⟩]
  · rw [swapBegun_tx, freedTx, if_neg fun h => hp ⟨h.2, h.1⟩]

theorem foldl_cutPatch_active (c : Settings) (qs : List Patch) (l : Live) :
    (qs.foldl (cutPatch c) l).active = l.active :=
  foldl_keeps (fun m => m.active = l.active) _ (fun m q h => (cutPatch_active c m q).trans h) qs l rfl

theorem begun_forced (c : Settings) (involved : List Patch) (l : Live) :
    Begun c involved true l (swapBegun c involved (involved.foldl (cutPatch c) l)) := by
  have hcut := foldl_cutPatch_cuts c involved l
  have hout := SameOutside.foldl (qs := involved) (f := cutPatch c) (fun m q hq => cutPatch_outside c hq m) l
  have hbank := foldl_cutPatch_active c involved l
  generalize involved.foldl (cutPatch c) l = k at hcut hout hbank
  obtain ⟨hactive, hrx, houtside, hinside⟩ := swapBegun_fresh c involved k
  have htx := swapBegun_tx c involved k
  refine ⟨by rw [hactive, hbank], hout.trans houtside, fun q hq => ?_, fun p hp => ?_, fun _ p hp => ?_,
    fun p hp hno => ?_⟩
  · rw [← hout.heads q]
    exact hinside q hq
  · obtain ⟨ktx, krx⟩ := hcut.others p fun q _ => not_reads_of_fault hp.1 q
    rw [hrx, krx, htx, ktx, freedTx, if_pos ⟨hp.2, hp.1⟩]
    exact ⟨rfl, rfl⟩
  · obtain ⟨ktx, krx⟩ := hcut.readers p hp
    rw [hrx, krx, htx, ktx, freedTx, if_neg fun h => absurd h.2 (by decide)]
    exact ⟨rfl, rfl⟩
  · obtain ⟨ktx, krx⟩ := hcut.others p (hno rfl)
    rw [hrx, krx, htx, ktx, freedTx, if_neg fun h => hp ⟨h.2, h.1⟩]
    exact ⟨rfl, rfl⟩

/-! ### Who is freed, in the words of the statement -/

theorem affected_iff {c : Settings} {involved : List Patch} {p : Port} :
    affected c involved p = true ↔ AffectedBy c involved p := by
  simp only [affected, List.any_eq_true, Bool.or_eq_true, stands_iff, AffectedBy]

theorem freed_of_freedBySwap {c : Settings} {involved : List Patch} {l b after : Live}
    (hactive : after.active = b.active) {p : Port} (h : FreedBySwap c involved l after p) : Freed c involved l b p := by
  obtain ⟨hfault, haffected, hmember⟩ := h
  refine ⟨hfault, ?_⟩
  rw [swapClearsFault, affected_iff.2 haffected, Bool.true_and]
  cases hp : portPatch c b p with
  | none => rfl
  | some q =>
    have hsome := portPatch_spec hp
    refine List.contains_iff_mem.2 ?_
    by_contra hq
    rw [← memberIn_congr (activeRecord_congr hactive c q), hmember q hq] at hsome
    exact absurd hsome (by decide)

theorem affected_of_freed {c : Settings} {involved : List Patch} {l b : Live} {p : Port}
    (h : Freed c involved l b p) : AffectedBy c involved p := by
  have hclears := h.2
  rw [swapClearsFault, Bool.and_eq_true] at hclears
  exact affected_iff.1 hclears.1

/-- By the law of the plan a port so freed is a member of no patch that is not involved. -/
theorem not_member_of_freed {c : Settings} (hplan : PlanLaw c) {involved : List Patch} {l b : Live} {p : Port}
    (h : Freed c involved l b p) {q : Patch} (hq : q ∉ involved) : memberIn c b q p = none := by
  by_contra hmember
  rw [← ne_eq, ← Option.isSome_iff_ne_none] at hmember
  have hclears := h.2
  rw [swapClearsFault, Bool.and_eq_true] at hclears
  cases hp : portPatch c b p with
  | none => exact absurd hmember (List.find?_eq_none.1 hp q (mem_allPatches q))
  | some r =>
    rw [hp] at hclears
    obtain rfl := patch_unique hplan (portPatch_spec hp) hmember
    exact hq (List.contains_iff_mem.1 hclears.2)

end Sys2Proof.SwapStart

/-! SUPPORT. The arbitrations of a swap: what they do whatever the state, and the floors they give by the laws of the plan. -/

namespace Sys2Proof.SwapRounds

open Sys2Proof.Machine Sys2Proof.Safety Sys2Proof.Claims Sys2Proof.ResetOrders Sys2Proof.Deletions
  Sys2Proof.Signalling Sys2Proof.Keying Sys2Proof.LiveRuns Sys2Proof.ClaimSteps Sys2Proof.Follow Sys2Proof.Rounds
  Sys2Proof.SwapStart

/-! ### The rounds of a hand-on, and the arbitrations of a swap -/

/-- What a round of keyings keeps, and a floor put in place where a selection is made again, a hand-on keeps. -/
theorem handOn_keeps {P : Live → Prop} {c : Settings} (hsync : ∀ l, P l → P (sync c l))
    (hplace : ∀ l q, P l → SelectsAgain c l q →
      P (placeFloor c q { ctxOf (sync c l) q with floor := fourLowest c (sync c l) q } (sync c l)))
    (n : Nat) {l : Live} (h : P l) : P (handOn n c l) := by
  induction n generalizing l with
  | zero => exact hsync l h
  | succ n ih =>
    rw [handOn]
    cases hq : reselection c l (sync c l) with
    | none => exact hsync l h
    | some q =>
      have hagain := reselects_iff.1 (List.find?_some (p := reselects c l (sync c l)) hq)
      rw [reselect, refilledFloor_granting (granting_sync.2 hagain.2.1) (by rw [(sync_view c l).ctx]; exact hagain.1)]
      exact ih (hplace l q h hagain)

/-- What one arbitration establishes of its patch and keeps of those before it holds after all of them. -/
theorem foldl_arbitrated {P : List Patch → Live → Prop} {f : Live → Patch → Live} {qs : List Patch} (hqs : qs.Nodup)
    (hstep : ∀ done l q, q ∈ qs → q ∉ done → P done l → P (q :: done) (f l q)) {b : Live} (h : P [] b) :
    ∃ done : List Patch, (∀ q, q ∈ done ↔ q ∈ qs) ∧ P done (qs.foldl f b) := by
  have hrest : ∀ (rs done : List Patch) (l : Live), rs.Nodup → (∀ q ∈ rs, q ∈ qs ∧ q ∉ done) → P done l →
      ∃ all : List Patch, (∀ q, q ∈ all ↔ q ∈ done ∨ q ∈ rs) ∧ P all (rs.foldl f l) := by
    intro rs
    induction rs with
    | nil => exact fun done l _ _ hl => ⟨done, fun q => by simp, hl⟩
    | cons r rs ih =>
      intro done l hrs hin hl
      obtain ⟨hr, hrs⟩ := List.nodup_cons.1 hrs
      obtain ⟨hmem, hnew⟩ := hin r List.mem_cons_self
      obtain ⟨all, hall, hP⟩ := ih (r :: done) (f l r) hrs (fun q hq => by
        obtain ⟨hqs, hqn⟩ := hin q (List.mem_cons_of_mem _ hq)
        refine ⟨hqs, fun hq' => ?_⟩
        rcases List.mem_cons.1 hq' with rfl | hq'
        · exact hr hq
        · exact hqn hq') (hstep done l r hmem hnew hl)
      refine ⟨all, fun q => ?_, hP⟩
      rw [hall, List.mem_cons, List.mem_cons]
      tauto
  obtain ⟨all, hall, hP⟩ := hrest qs [] b hqs (fun q hq => ⟨hq, List.not_mem_nil⟩) h
  exact ⟨all, fun q => by simpa using hall q, hP⟩

/-! ### Ports in FAULT, and ports that are DORMANT or KEYING -/

/-- Ports in FAULT keep their machines, the others do not come into FAULT. -/
def FaultsKept (l l' : Live) : Prop :=
  ∀ p, ((look l.tx p).state = .fault → look l'.tx p = look l.tx p) ∧
    ((look l.tx p).state ≠ .fault → (look l'.tx p).state ≠ .fault)

theorem FaultsKept.refl (l : Live) : FaultsKept l l := fun _ => ⟨fun _ => rfl, id⟩

theorem FaultsKept.trans {a b d : Live} (h : FaultsKept a b) (k : FaultsKept b d) : FaultsKept a d := fun p =>
  ⟨fun hf => ((k p).1 (by rw [(h p).1 hf]; exact hf)).trans ((h p).1 hf), fun hf => (k p).2 ((h p).2 hf)⟩

/-- A port is DORMANT or KEYING. -/
def Cold (l : Live) (p : Port) : Prop := (look l.tx p).state = .dormant ∨ (look l.tx p).state = .keying

theorem syncedTx_state (c : Settings) (l : Live) (p : Port) (t : TxPort) :
    (syncedTx c l p t).state = t.state ∨ (t.state = .dormant ∧ (syncedTx c l p t).state = .keying) ∨
      (t.state = .hang ∧ (syncedTx c l p t).state = .onAir) := by
  rcases state_cases t with hd | hf | hk
  · rw [syncedTx_dormant hd]
    cases keysOn c l p with
    | none => exact .inl rfl
    | some q => exact .inr (.inl ⟨hd, rfl⟩)
  · rw [syncedTx_fault hf]
    exact .inl rfl
  · rw [syncedTx_keyed hk]
    cases t.reader with
    | none => exact .inl rfl
    | some r => exact (followed_state c l p r t).imp_right .inr

theorem sync_faultsKept (c : Settings) (l : Live) : FaultsKept l (sync c l) := by
  intro p
  rw [look_sync_tx]
  refine ⟨fun hf => syncedTx_fault hf, fun hf => ?_⟩
  rcases syncedTx_state c l p (look l.tx p) with h | ⟨-, h⟩ | ⟨-, h⟩
  · rwa [h]
  · rw [h]
    decide
  · rw [h]
    decide

theorem placeFloor_faultsKept (c : Settings) (q : Patch) (ctx : Context) (l : Live) :
    FaultsKept l (placeFloor c q ctx l) := by
  intro p
  by_cases h : EntersReading l q ctx p
  · rw [(look_placeFloor_entering c h).1]
    refine ⟨fun hf => ?_, fun _ => by decide⟩
    have hreads := h.2.2
    rw [not_reads_of_fault hf] at hreads
    exact absurd hreads (by decide)
  · rw [(look_placeFloor_other c h).1]
    exact ⟨fun _ => rfl, id⟩

theorem settleKeys_faultsKept (c : Settings) (l : Live) : FaultsKept l (settleKeys c l) :=
  handOn_keeps (P := FaultsKept l) (fun m h => h.trans (sync_faultsKept c m))
    (fun m q h _ => (h.trans (sync_faultsKept c m)).trans (placeFloor_faultsKept c q _ _)) 18 (.refl l)

theorem sync_cold {c : Settings} {l : Live} {p : Port} (h : Cold l p) : Cold (sync c l) p := by
  rw [Cold, look_sync_tx]
  rcases syncedTx_state c l p (look l.tx p) with hs | ⟨-, hs⟩ | ⟨hhang, -⟩
  · rwa [hs]
  · exact .inr hs
  · rcases h with h | h
    · rw [hhang] at h
      exact absurd h (by decide)
    · rw [hhang] at h
      exact absurd h (by decide)

theorem placeFloor_cold {c : Settings} {q : Patch} {ctx : Context} {l : Live} {p : Port} (h : Cold l p) :
    Cold (placeFloor c q ctx l) p := by
  by_cases he : EntersReading l q ctx p
  · rw [Cold, (look_placeFloor_entering c he).1]
    exact .inl rfl
  · rwa [Cold, (look_placeFloor_other c he).1]

theorem settleKeys_cold {c : Settings} {l : Live} {p : Port} (h : Cold l p) : Cold (settleKeys c l) p :=
  handOn_keeps (P := fun m => Cold m p) (fun _ => sync_cold) (fun _ _ hm _ => placeFloor_cold (sync_cold hm)) 18 h

/-! ### Arbitrations, whatever the state -/

theorem unreleased_trans {a b d : Live} (h : ∀ p, RxStep (look a.rx p) (look b.rx p))
    (k : ∀ p, RxStep (look b.rx p) (look d.rx p)) (ps : List Port) :
    unreleased b d (unreleased a b ps) = unreleased a d ps := by
  rw [unreleased, unreleased, unreleased, List.filter_filter]
  refine List.filter_congr fun p _ => ?_
  rw [Bool.eq_iff_iff, Bool.and_eq_true, decide_eq_true_eq, decide_eq_true_eq, decide_eq_true_eq,
    (h p).rx_eq_iff (k p), and_comm]

/-- The claimants that a record gives later are those it gave before, but for those released since. -/
theorem unreleased_recordClaimants {c : Settings} {b l d : Live} (hactive : l.active = b.active)
    (h : ∀ p, RxStep (look b.rx p) (look l.rx p)) (k : ∀ p, RxStep (look l.rx p) (look d.rx p)) (q : Patch) :
    unreleased l d (recordClaimants c l q) = unreleased b d (recordClaimants c b q) := by
  rw [unreleased, unreleased, recordClaimants, recordClaimants, List.filter_filter, List.filter_filter]
  refine List.filter_congr fun p _ => ?_
  rw [talkMember_congr hactive, Bool.eq_iff_iff]
  simp only [Bool.and_eq_true, decide_eq_true_eq, (h p).rx_eq_iff (k p), rxActive]
  constructor
  · rintro ⟨hd, htalk, ha⟩
    rcases (h p).2 with ⟨hrx, -⟩ | ⟨-, hquiet, -⟩
    · exact ⟨⟨hrx, hd⟩, htalk, hrx ▸ ha⟩
    · rw [hquiet] at ha
      exact absurd ha (by decide)
  · rintro ⟨⟨hrx, hd⟩, htalk, ha⟩
    exact ⟨hd, htalk, hrx.trans ha⟩

theorem arbitrateFresh_keyRun (c : Settings) (l : Live) (q : Patch) :
    KeyRun c (l.setClaimants q (recordClaimants c l q)) (arbitrateFresh c l q) := by
  unfold arbitrateFresh
  refine installFloor_run c q _ _ (fun h => ?_) fun x hx => ?_
  · exact contextLawful_refilledFloor (contextLawful_fewer (Nat.zero_le _) h)
  · exact (mem_of_mem_refilledFloor hx).imp_right fun h => absurd h List.not_mem_nil

/-- What arbitrations of some patches do, whatever state they start from. -/
structure Arbitrated (c : Settings) (b : Live) (done : List Patch) (l : Live) : Prop where
  beyond : l.beyondFloors = b.beyondFloors
  ctx : ∀ q, ctxOf l q = { ctxOf b q with floor := (ctxOf l q).floor }
  rx : ∀ p, RxStep (look b.rx p) (look l.rx p)
  claims : ∀ q ∈ done, claimantsOf l q = unreleased b l (recordClaimants c b q)
  faults : FaultsKept b l
  cold : ∀ p, Cold b p → Cold l p
  empty : ∀ q, (∀ p, talkMember c b q p = false) → (∀ p, Absent p b q) → ∀ p, Absent p l q

theorem arbitrated_refl (c : Settings) (b : Live) : Arbitrated c b [] b :=
  ⟨rfl, fun _ => rfl, fun _ => .refl _, fun _ hq => absurd hq List.not_mem_nil, .refl b, fun _ => id, fun _ _ => id⟩

theorem Arbitrated.active {c : Settings} {b l : Live} {done : List Patch} (h : Arbitrated c b done l) :
    l.active = b.active := (beyondFloors_fields h.beyond).1

theorem Arbitrated.step {c : Settings} {b l : Live} {done : List Patch} (h : Arbitrated c b done l) (q : Patch) :
    Arbitrated c b (q :: done) (arbitrateFresh c l q) := by
  have hrun := arbitrateFresh_keyRun c l q
  have ht := hrun.tuned
  have hrx : ∀ p, RxStep (look l.rx p) (look (arbitrateFresh c l q).rx p) := ht.rx
  refine ⟨?beyond, fun r => ?ctx, fun p => (h.rx p).trans (hrx p), fun r hr => ?claims, ?faults, fun p hp => ?cold,
    fun r hnone habsent p => ?empty⟩
  case beyond => exact ht.rest.trans ((Live.setClaimants_beyondFloors ..).trans h.beyond)
  case ctx => rw [ht.ctx r, ctxOf_setClaimants, h.ctx r]
  case claims =>
    rw [ht.claims r, claimantsOf_setClaimants]
    split
    · rename_i he
      subst he
      exact unreleased_recordClaimants h.active h.rx hrx r
    · rename_i he
      rw [h.claims r ((List.mem_cons.1 hr).resolve_left he)]
      exact unreleased_trans h.rx hrx _
  case faults =>
    refine h.faults.trans ?_
    unfold arbitrateFresh installFloor install
    exact FaultsKept.trans (placeFloor_faultsKept c q _ (l.setClaimants q (recordClaimants c l q)))
      (settleKeys_faultsKept c _)
  case cold =>
    have hl : Cold (l.setClaimants q (recordClaimants c l q)) p := h.cold p hp
    unfold arbitrateFresh installFloor install
    exact settleKeys_cold (placeFloor_cold hl)
  case empty =>
    refine absent_of_keyRun hrun ?_
    obtain ⟨hclaims, hfloor⟩ := h.empty r hnone habsent p
    refine ⟨?_, by rwa [ctxOf_setClaimants]⟩
    rw [claimantsOf_setClaimants]
    split
    · rename_i he
      subst he
      intro hp
      have htalk := (List.mem_filter.1 hp).2
      rw [talkMember_congr h.active, hnone p] at htalk
      exact absurd htalk (by simp)
    · exact hclaims

/-! ### Arbitrations under the laws of plan and settings -/

/-- The floor that the arbitration of a patch gives it: of the claimants its record gives, in SINGLE the one that
selection gives, in MIX the four lowest keys (R45, R48). -/
def freshFloor (c : Settings) (b : Live) (q : Patch) : List Port :=
  match (activeRecord c b q).mode with
  | .mix => fourLowest c (b.setClaimants q (recordClaimants c b q)) q
  | .single => selectedFloor c (b.setClaimants q (recordClaimants c b q)) q

/-- While patches that have been started afresh are arbitrated: those still to come are empty, and nobody of their
members has lost RX_ACTIVE; the others have the floor that their arbitration gives, and in MIX it still is their four
lowest claimants. -/
structure Seated (c : Settings) (b : Live) (qs done : List Patch) (l : Live) : Prop where
  records : ∀ q, activeRecord c l q = activeRecord c b q
  emg : ∀ p, (look l.rx p).emg = (look b.rx p).emg
  plain : ∀ q ∈ qs, ctxOf l q = { Context.default (activeRecord c b q).mode with floor := (ctxOf l q).floor }
  freezing : ∀ q ∈ qs, (look l.fla q).freezing = false
  members : ∀ q ∈ qs, ∀ p ∈ claimantsOf l q, talkMember c b q p = true
  waiting : ∀ q ∈ qs, q ∉ done → (ctxOf l q).floor = [] ∧ claimantsOf l q = [] ∧
    ∀ p, (memberIn c b q p).isSome = true → (look l.rx p).rx = (look b.rx p).rx
  seated : ∀ q ∈ qs, q ∈ done → (ctxOf l q).floor = freshFloor c b q ∧
    ((ctxOf l q).mode = .mix → fourLowest c l q = (ctxOf l q).floor)
  claimed : ∀ q ∈ qs, ∀ p ∈ (ctxOf l q).floor, talkMember c b q p = true

section

variable {c : Settings} {b : Live} {qs done : List Patch} {l : Live}

theorem Seated.source (h : Seated c b qs done l) {q : Patch} (hq : q ∈ qs) : (ctxOf l q).source = .receive := by
  rw [h.plain q hq]
  rfl

theorem Seated.restriction (h : Seated c b qs done l) {q : Patch} (hq : q ∈ qs) : (ctxOf l q).restriction = none := by
  rw [h.plain q hq]
  rfl

theorem Seated.mode (h : Seated c b qs done l) {q : Patch} (hq : q ∈ qs) :
    (ctxOf l q).mode = (activeRecord c b q).mode := by
  rw [h.plain q hq]
  rfl

/-- The writer of a patch still to come is not active. -/
theorem Seated.silent (h : Seated c b qs done l) {q : Patch} (hq : q ∈ qs) (hnew : q ∉ done) :
    writerActive l q = false := by
  rw [writerActive, (h.waiting q hq hnew).1, h.source hq]
  rfl

/-- Where floors and claimants of the patches and the receive machines but for debounces stay. -/
theorem Seated.congr (h : Seated c b qs done l) {l' : Live} (hrecords : ∀ q, activeRecord c l' q = activeRecord c l q)
    (hrx : ∀ p, ∃ d, look l'.rx p = { look l.rx p with cor := d })
    (hfla : ∀ q ∈ qs, look l'.fla q = look l.fla q) : Seated c b qs done l' := by
  have hctx : ∀ q ∈ qs, ctxOf l' q = ctxOf l q := fun q hq => by rw [ctxOf, hfla q hq, ctxOf]
  have hclaims : ∀ q ∈ qs, claimantsOf l' q = claimantsOf l q := fun q hq => by rw [claimantsOf, hfla q hq, claimantsOf]
  have hemg : ∀ p, (look l'.rx p).emg = (look l.rx p).emg := fun p => by
    obtain ⟨d, hd⟩ := hrx p
    rw [hd]
  have hstate : ∀ p, (look l'.rx p).rx = (look l.rx p).rx := fun p => by
    obtain ⟨d, hd⟩ := hrx p
    rw [hd]
  refine ⟨fun q => (hrecords q).trans (h.records q), fun p => (hemg p).trans (h.emg p), fun q hq => ?_, fun q hq => ?_,
    fun q hq => ?_, fun q hq hnew => ?_, fun q hq hold => ?_, fun q hq => ?_⟩
  · rw [hctx q hq]
    exact h.plain q hq
  · rw [hfla q hq]
    exact h.freezing q hq
  · rw [hclaims q hq]
    exact h.members q hq
  · rw [hctx q hq, hclaims q hq]
    obtain ⟨hfloor, hnone, hkept⟩ := h.waiting q hq hnew
    exact ⟨hfloor, hnone, fun p hp => (hstate p).trans (hkept p hp)⟩
  · rw [hctx q hq, fourLowest_congr (hrecords q) hemg (hclaims q hq) (by rw [hctx q hq])]
    exact h.seated q hq hold
  · rw [hctx q hq]
    exact h.claimed q hq

variable (hplan : PlanLaw c) (hset : SettingsLaw c)
include hplan hset

/-- Nobody on the floor of such a patch is released. -/
theorem Seated.floor_kept (h : Seated c b qs done l) {q : Patch} (hq : q ∈ qs) {p : Port}
    (hp : p ∈ (ctxOf l q).floor) : ¬ Released c l p := by
  intro hrel
  obtain ⟨-, hradio, hkeys⟩ := keysOn_of_released hplan hset (q := q)
    (by rw [memberIn_congr (h.records q)]; exact isSome_of_talkMember (h.claimed q hq p hp)) hrel
  exact not_mem_floor_of_keysOn (h.source hq) hradio hkeys hp

/-- No member of a patch still to come is released. -/
theorem Seated.member_kept (h : Seated c b qs done l) {q : Patch} (hq : q ∈ qs) (hnew : q ∉ done) {p : Port}
    (hp : (memberIn c b q p).isSome = true) : ¬ Released c l p := by
  intro hrel
  obtain ⟨-, -, hkeys⟩ := keysOn_of_released hplan hset (q := q) (by rwa [memberIn_congr (h.records q)]) hrel
  have hactive := (keysOn_iff.1 hkeys).2
  rw [h.silent hq hnew] at hactive
  exact absurd hactive (by decide)

theorem Seated.sync (h : Seated c b qs done l) : Seated c b qs done (sync c l) := by
  have hview := sync_view c l
  have ht := (sync_run c l).tuned
  refine ⟨fun q => (hview.records q).trans (h.records q), fun p => (ht.rx p).1.trans (h.emg p), fun q hq => ?_,
    fun q hq => ?_, fun q hq p hp => ?_, fun q hq hnew => ?_, fun q hq hold => ?_, fun q hq => ?_⟩
  · rw [hview.ctx]
    exact h.plain q hq
  · rw [beyondFloors_freezing (sync_beyondFloors c l)]
    exact h.freezing q hq
  · rw [ht.claims q] at hp
    exact h.members q hq p (List.mem_filter.1 hp).1
  · obtain ⟨hfloor, hnone, hkept⟩ := h.waiting q hq hnew
    rw [hview.ctx, ht.claims q, hnone]
    exact ⟨hfloor, rfl, fun p hp => (not_not.1 (h.member_kept hplan hset hq hnew hp)).trans (hkept p hp)⟩
  · obtain ⟨hfloor, hfour⟩ := h.seated q hq hold
    rw [hview.ctx]
    refine ⟨hfloor, fun hmix => ?_⟩
    rw [fourLowest_sync fun p hp => h.floor_kept hplan hset hq (hfour hmix ▸ hp)]
    exact hfour hmix
  · rw [hview.ctx]
    exact h.claimed q hq

/-- The selection of such a patch is not made again. -/
theorem Seated.not_again (h : Seated c b qs done l) {q : Patch} (hq : q ∈ qs) : ¬ SelectsAgain c l q := by
  rintro ⟨hmix, -, hclaims, hfloor⟩
  by_cases hold : q ∈ done
  · have hfour := (h.seated q hq hold).2 hmix
    refine hfloor ?_
    rw [fourLowest_sync fun p hp => h.floor_kept hplan hset hq (hfour ▸ hp)]
    exact hfour
  · rw [(sync_run c l).tuned.claims q, (h.waiting q hq hold).2.1] at hclaims
    exact hclaims rfl

omit hplan hset in
/-- A floor put in place in another patch. -/
theorem Seated.placeElsewhere (h : Seated c b qs done l) {r : Patch} (hr : r ∉ qs) (ctx : Context) :
    Seated c b qs done (placeFloor c r ctx l) := by
  refine h.congr (activeRecord_congr (beyondFloors_fields (placeFloor_beyondFloors c r ctx l)).1 c)
    (rx_placeFloor c r ctx l) fun q hq => ?_
  have hne : q ≠ r := fun he => hr (he ▸ hq)
  rw [look_placeFloor_fla, if_neg hne]
  rfl

theorem Seated.handOn (h : Seated c b qs done l) (n : Nat) : Seated c b qs done (handOn n c l) :=
  handOn_keeps (P := Seated c b qs done) (fun _ hm => hm.sync hplan hset)
    (fun _ _ hm hagain => Seated.placeElsewhere (hm.sync hplan hset)
      (fun hr => hm.not_again hplan hset hr hagain) _) n h

theorem Seated.settleKeys (h : Seated c b qs done l) : Seated c b qs done (settleKeys c l) := by
  have hrounds := h.handOn hplan hset 18
  exact hrounds

omit hplan hset in
theorem Seated.recordClaimants (h : Seated c b qs done l) {q : Patch} (hq : q ∈ qs) (hnew : q ∉ done) :
    recordClaimants c l q = recordClaimants c b q := by
  refine List.filter_congr fun p _ => ?_
  have htalk : talkMember c l q p = talkMember c b q p := by
    rw [talkMember, memberIn_congr (h.records q), talkMember]
  rw [htalk, Bool.eq_iff_iff, Bool.and_eq_true, Bool.and_eq_true]
  refine and_congr_right fun hp => ?_
  rw [rxActive, (h.waiting q hq hnew).2.2 p (isSome_of_talkMember hp), rxActive]

omit hplan hset in
/-- The floor that an arbitration puts in place. -/
theorem Seated.refilledFloor (h : Seated c b qs done l) (hb : ∀ q ∈ qs, (ctxOf b q).restriction = none) {q : Patch}
    (hq : q ∈ qs) (hnew : q ∉ done) :
    refilledFloor c (l.setClaimants q (Machine.recordClaimants c l q)) q [] = freshFloor c b q := by
  have hgrants : Granting (l.setClaimants q (Machine.recordClaimants c l q)) q := by
    rw [Granting, ctxOf_setClaimants]
    refine ⟨h.source hq, ?_⟩
    rw [Live.setClaimants_fla, look_put_same]
    exact h.freezing q hq
  have hclaims : claimantsOf (l.setClaimants q (Machine.recordClaimants c l q)) q =
      claimantsOf (b.setClaimants q (Machine.recordClaimants c b q)) q := by
    rw [claimantsOf_setClaimants, claimantsOf_setClaimants, if_pos rfl, if_pos rfl, h.recordClaimants hq hnew]
  have hrestriction : (ctxOf (l.setClaimants q (Machine.recordClaimants c l q)) q).restriction =
      (ctxOf (b.setClaimants q (Machine.recordClaimants c b q)) q).restriction := by
    rw [ctxOf_setClaimants, ctxOf_setClaimants, h.restriction hq, hb q hq]
  have hmode : (ctxOf (l.setClaimants q (Machine.recordClaimants c l q)) q).mode = (activeRecord c b q).mode := by
    rw [ctxOf_setClaimants, h.mode hq]
  rw [freshFloor]
  cases hm : (activeRecord c b q).mode with
  | mix =>
    rw [refilledFloor_granting hgrants (hmode.trans hm)]
    exact fourLowest_congr (h.records q) h.emg hclaims hrestriction
  | single =>
    simp only [Machine.refilledFloor, floorHeld, underAlert, hgrants.1, hgrants.2, hmode.trans hm]
    exact selectedFloor_congr (h.records q) h.emg hclaims hrestriction

omit hplan hset in
/-- An arbitration up to its hand-on. -/
theorem Seated.placed (h : Seated c b qs done l) (hb : ∀ q ∈ qs, (ctxOf b q).restriction = none) {q : Patch}
    (hq : q ∈ qs) (hnew : q ∉ done) :
    Seated c b qs (q :: done) (placeFloor c q { ctxOf l q with floor := freshFloor c b q }
      (l.setClaimants q (Machine.recordClaimants c l q))) := by
  have hfloor := h.refilledFloor hb hq hnew
  have hbeyond := (placeFloor_beyondFloors c q { ctxOf l q with floor := freshFloor c b q }
    (l.setClaimants q (Machine.recordClaimants c l q))).trans (Live.setClaimants_beyondFloors ..)
  have hrx := rx_placeFloor c q { ctxOf l q with floor := freshFloor c b q }
    (l.setClaimants q (Machine.recordClaimants c l q))
  have hclaimed : ∀ p ∈ freshFloor c b q, talkMember c b q p = true := by
    intro p hp
    rw [← hfloor] at hp
    have hmem := (mem_of_mem_refilledFloor hp).resolve_right List.not_mem_nil
    rw [claimantsOf_setClaimants, if_pos rfl, h.recordClaimants hq hnew] at hmem
    exact ((Bool.and_eq_true _ _).mp (List.mem_filter.1 hmem).2).1
  have hctx : ∀ r, ctxOf (placeFloor c q { ctxOf l q with floor := freshFloor c b q }
      (l.setClaimants q (Machine.recordClaimants c l q))) r =
        if r = q then { ctxOf l q with floor := freshFloor c b q } else ctxOf l r := fun r => by
    rw [ctxOf_placeFloor, ctxOf_setClaimants]
  have hclaims : ∀ r, claimantsOf (placeFloor c q { ctxOf l q with floor := freshFloor c b q }
      (l.setClaimants q (Machine.recordClaimants c l q))) r =
        if r = q then Machine.recordClaimants c l q else claimantsOf l r := fun r => by
    rw [claimantsOf_placeFloor, claimantsOf_setClaimants]
  have hrecords := activeRecord_congr (beyondFloors_fields hbeyond).1 c
  have hemg : ∀ p, (look (placeFloor c q { ctxOf l q with floor := freshFloor c b q }
      (l.setClaimants q (Machine.recordClaimants c l q))).rx p).emg = (look l.rx p).emg := fun p => by
    obtain ⟨d, hd⟩ := hrx p
    rw [hd, Live.setClaimants_rx]
  have hstate : ∀ p, (look (placeFloor c q { ctxOf l q with floor := freshFloor c b q }
      (l.setClaimants q (Machine.recordClaimants c l q))).rx p).rx = (look l.rx p).rx := fun p => by
    obtain ⟨d, hd⟩ := hrx p
    rw [hd, Live.setClaimants_rx]
  have hfreezing := beyondFloors_freezing hbeyond
  generalize placeFloor c q { ctxOf l q with floor := freshFloor c b q }
    (l.setClaimants q (Machine.recordClaimants c l q)) = m at *
  refine ⟨fun r => (hrecords r).trans (h.records r), fun p => (hemg p).trans (h.emg p), fun r hr => ?plain,
    fun r hr => (hfreezing r).trans (h.freezing r hr), fun r hr p hp => ?members, fun r hr hne => ?waiting,
    fun r hr hold => ?seated, fun r hr p hp => ?claimed⟩
  case plain =>
    rw [hctx]
    split
    · rename_i he
      rw [h.plain q hq, he]
    · exact h.plain r hr
  case members =>
    rw [hclaims] at hp
    split at hp
    · rename_i he
      rw [h.recordClaimants hq hnew] at hp
      rw [he]
      exact ((Bool.and_eq_true _ _).mp (List.mem_filter.1 hp).2).1
    · exact h.members r hr p hp
  case waiting =>
    have hrq : r ≠ q := fun he => hne (he ▸ List.mem_cons_self)
    rw [hctx, hclaims, if_neg hrq, if_neg hrq]
    obtain ⟨hempty, hnone, hkept⟩ := h.waiting r hr fun hd => hne (List.mem_cons_of_mem _ hd)
    exact ⟨hempty, hnone, fun p hp => (hstate p).trans (hkept p hp)⟩
  case seated =>
    by_cases he : r = q
    · subst he
      rw [hctx, if_pos rfl]
      refine ⟨rfl, fun hmix => ?_⟩
      have hmode : (activeRecord c b r).mode = .mix := (h.mode hr).symm.trans hmix
      have hfour : freshFloor c b r = fourLowest c (b.setClaimants r (Machine.recordClaimants c b r)) r := by
        rw [freshFloor, hmode]
      rw [hfour]
      refine fourLowest_congr ((hrecords r).trans (h.records r)) (fun p => (hemg p).trans (h.emg p)) ?_ ?_
      · rw [hclaims, claimantsOf_setClaimants, if_pos rfl, if_pos rfl, h.recordClaimants hr hnew]
      · rw [hctx, if_pos rfl, ctxOf_setClaimants, hb r hr]
        exact h.restriction hr
    · have hclaims_r : claimantsOf m r = claimantsOf l r := by rw [hclaims, if_neg he]
      have hctx_r : ctxOf m r = ctxOf l r := by rw [hctx, if_neg he]
      rw [fourLowest_congr (hrecords r) hemg hclaims_r (by rw [hctx_r]), hctx_r]
      exact h.seated r hr ((List.mem_cons.1 hold).resolve_left he)
  case claimed =>
    rw [hctx] at hp
    split at hp
    · rename_i he
      rw [he]
      exact hclaimed p hp
    · exact h.claimed r hr p hp

omit hplan hset in
theorem Seated.arbitrateFresh_eq (h : Seated c b qs done l) (hb : ∀ q ∈ qs, (ctxOf b q).restriction = none) {q : Patch}
    (hq : q ∈ qs) (hnew : q ∉ done) :
    arbitrateFresh c l q = Machine.settleKeys c (placeFloor c q { ctxOf l q with floor := freshFloor c b q }
      (l.setClaimants q (Machine.recordClaimants c l q))) := by
  unfold arbitrateFresh installFloor install
  dsimp only
  rw [h.refilledFloor hb hq hnew, ctxOf_setClaimants]

theorem Seated.step (h : Seated c b qs done l) (hb : ∀ q ∈ qs, (ctxOf b q).restriction = none) {q : Patch}
    (hq : q ∈ qs) (hnew : q ∉ done) : Seated c b qs (q :: done) (arbitrateFresh c l q) := by
  rw [h.arbitrateFresh_eq hb hq hnew]
  exact (h.placed hb hq hnew).settleKeys hplan hset

end

/-- Patches started afresh, none arbitrated yet. -/
theorem seated_refl {c : Settings} {b : Live} {qs : List Patch}
    (hb : ∀ q ∈ qs, look b.fla q = FloorState.default (activeRecord c b q).mode) : Seated c b qs [] b := by
  have hctx : ∀ q ∈ qs, ctxOf b q = Context.default (activeRecord c b q).mode := fun q hq => by
    rw [ctxOf, hb q hq, FloorState.default]
  have hclaims : ∀ q ∈ qs, claimantsOf b q = [] := fun q hq => by
    rw [claimantsOf, hb q hq, FloorState.default]
  refine ⟨fun _ => rfl, fun _ => rfl, fun q hq => ?_, fun q hq => ?_, fun q hq p hp => ?_, fun q hq _ => ?_,
    fun q _ hold => absurd hold List.not_mem_nil, fun q hq p hp => ?_⟩
  · rw [hctx q hq]
  · rw [hb q hq]
    rfl
  · rw [hclaims q hq] at hp
    exact absurd hp List.not_mem_nil
  · exact ⟨by rw [hctx q hq]; rfl, hclaims q hq, fun _ _ => rfl⟩
  · rw [hctx q hq] at hp
    exact absurd hp List.not_mem_nil

end Sys2Proof.SwapRounds

/-! SUPPORT. The arbitrations of a swap from a state whose machines have followed: one round of keyings each. -/

namespace Sys2Proof.SwapFollows

open Sys2Proof.Machine Sys2Proof.Safety Sys2Proof.Claims Sys2Proof.ResetOrders Sys2Proof.Deletions
  Sys2Proof.Signalling Sys2Proof.Keying Sys2Proof.LiveRuns Sys2Proof.ClaimSteps Sys2Proof.Follow Sys2Proof.Rounds
  Sys2Proof.SwapStart Sys2Proof.SwapRounds

/-! ### Arbitrations from a state that has followed -/

/-- A state from which patches are arbitrated: they are started afresh; in the others no claimant is about to be released
by a keying; and readers of their rings have nothing to do. -/
structure Ready (c : Settings) (qs : List Patch) (b : Live) : Prop where
  fresh : ∀ q ∈ qs, look b.fla q = FloorState.default (activeRecord c b q).mode
  quiet : ∀ r, r ∉ qs → ∀ y ∈ claimantsOf b r, (memberIn c b r y).isSome = true ∧
    (ignoresWhenKeyed (look c.ports y) = true → keyed (look b.tx y) = false ∧
      (entitled c b y r = true → writerActive b r = true → (look b.tx y).state ≠ .dormant))
  readers : ∀ p, keyed (look b.tx p) = true → (∀ q ∈ qs, reads b p q = false) →
    syncedTx c b p (look b.tx p) = look b.tx p

/-- A port as it was, or keyed since on the ring it is entitled to. -/
def KeyedSince (c : Settings) (b l : Live) (p : Port) : Prop :=
  (look l.tx p = look b.tx p ∧ look l.rx p = look b.rx p) ∨
    ((look b.tx p).state = .dormant ∧ ∃ r, entitled c l p r = true ∧ writerActive l r = true ∧
      look l.tx p = keyedTx c b p r (keyUpFor c b p r) ∧ look l.rx p = rxAsKeyed c p (look b.rx p))

/-- While patches are arbitrated from such a state: the others stay; every port that did not read one of their rings is
as it was or keyed since; and no receive state changes where the COR is not ignored. -/
structure Tidy (c : Settings) (b : Live) (qs done : List Patch) (l : Live) : Prop where
  seated : Seated c b qs done l
  beyond : l.beyondFloors = b.beyondFloors
  outside : ∀ r, r ∉ qs → look l.fla r = look b.fla r
  ports : ∀ p, (∀ q ∈ qs, reads b p q = false) → KeyedSince c b l p
  heard : ∀ p, ignoresWhenKeyed (look c.ports p) = false → (look l.rx p).rx = (look b.rx p).rx ∧
    (look l.rx p).talk = (look b.rx p).talk

/-- An arbitration up to its hand-on: the claimants of the record, and the floor they give put in place. -/
def seat (c : Settings) (b l : Live) (q : Patch) : Live :=
  placeFloor c q { ctxOf l q with floor := freshFloor c b q } (l.setClaimants q (recordClaimants c l q))

theorem ctxOf_seat (c : Settings) (b l : Live) (q r : Patch) :
    ctxOf (seat c b l q) r = if r = q then { ctxOf l q with floor := freshFloor c b q } else ctxOf l r := by
  rw [seat, ctxOf_placeFloor, ctxOf_setClaimants]

theorem claimantsOf_seat_ne (c : Settings) (b l : Live) {q r : Patch} (h : r ≠ q) :
    claimantsOf (seat c b l q) r = claimantsOf l r := by
  rw [seat, claimantsOf_placeFloor, claimantsOf_setClaimants, if_neg h]

theorem seat_beyondFloors (c : Settings) (b l : Live) (q : Patch) :
    (seat c b l q).beyondFloors = l.beyondFloors :=
  (placeFloor_beyondFloors c q _ _).trans (Live.setClaimants_beyondFloors ..)

theorem rx_seat (c : Settings) (b l : Live) (q : Patch) (p : Port) :
    ∃ d, look (seat c b l q).rx p = { look l.rx p with cor := d } :=
  rx_placeFloor c q _ (l.setClaimants q (recordClaimants c l q)) p

/-- A port that does not read the ring keeps its machines as the floor is put in place. -/
theorem seat_of_not_reads (c : Settings) (b : Live) {l : Live} {q : Patch} {p : Port} (h : reads l p q = false) :
    look (seat c b l q).tx p = look l.tx p ∧ look (seat c b l q).rx p = look l.rx p := by
  refine look_placeFloor_other c (l := l.setClaimants q (recordClaimants c l q)) fun he => ?_
  have hreads : reads l p q = true := he.2.2
  rw [h] at hreads
  exact absurd hreads (by decide)

theorem floorState_ext {l l' : Live} {r : Patch} (hctx : ctxOf l' r = ctxOf l r)
    (hfreezing : (look l'.fla r).freezing = (look l.fla r).freezing) (hclaims : claimantsOf l' r = claimantsOf l r) :
    look l'.fla r = look l.fla r := by
  rw [ctxOf, ctxOf] at hctx
  rw [claimantsOf, claimantsOf] at hclaims
  calc look l'.fla r = ⟨(look l'.fla r).ctx, (look l'.fla r).freezing, (look l'.fla r).claimants⟩ := rfl
    _ = look l.fla r := by rw [hctx, hfreezing, hclaims]

theorem followed_keyedTx {c : Settings} {l b : Live} {p : Port} {r : Patch} {ms : Nat}
    (h : entitled c l p r = true) :
    syncedTx c l p (keyedTx c b p r ms) = keyedTx c b p r ms := by
  rw [syncedTx_keyed (by rfl)]
  exact followed_entitled (t := keyedTx c b p r ms) h fun hs => absurd hs.1 (by simp [keyedTx])

theorem syncedRx_of_not_dormant {c : Settings} {l : Live} {p : Port} (h : (look l.tx p).state ≠ .dormant) :
    syncedRx c l p = look l.rx p := if_neg fun hs => h hs.1

section

variable {c : Settings} {b : Live} {qs done : List Patch} {l : Live} (h : Tidy c b qs done l) {q : Patch}
include h

theorem Tidy.holder : l.guestHolder = b.guestHolder := (beyondFloors_fields h.beyond).2.2.2.2.1

theorem Tidy.rings : l.rings = b.rings := (beyondFloors_fields h.beyond).2.1

/-- A port that did not read one of the rings does not read that of a patch still to come. -/
theorem Tidy.not_reads (hq : q ∈ qs) (hnew : q ∉ done) {p : Port} (hp : ∀ q ∈ qs, reads b p q = false) :
    reads l p q = false := by
  rcases h.ports p hp with ⟨htx, -⟩ | ⟨-, r, -, hactive, htx, -⟩
  · rw [reads_of_look htx]
    exact hp q hq
  · rw [Bool.eq_false_iff]
    intro hreads
    obtain ⟨-, z, hz, rfl⟩ := reads_iff.1 hreads
    rw [htx] at hz
    obtain rfl := Option.some.inj hz
    have hsilent := h.seated.silent hq hnew
    rw [show writerActive l r = true from hactive] at hsilent
    exact absurd hsilent (by decide)

theorem Tidy.seat_holder : (seat c b l q).guestHolder = b.guestHolder :=
  (beyondFloors_fields (seat_beyondFloors c b l q)).2.2.2.2.1.trans h.holder

theorem Tidy.seat_rings : (seat c b l q).rings = b.rings :=
  (beyondFloors_fields (seat_beyondFloors c b l q)).2.1.trans h.rings

theorem Tidy.seat_records (r : Patch) : activeRecord c (seat c b l q) r = activeRecord c b r :=
  (activeRecord_congr (beyondFloors_fields (seat_beyondFloors c b l q)).1 c r).trans (h.seated.records r)

/-- The context of a patch that is not one of those to be arbitrated. -/
theorem Tidy.seat_ctx (hq : q ∈ qs) {r : Patch} (hr : r ∉ qs) : ctxOf (seat c b l q) r = ctxOf b r := by
  rw [ctxOf_seat, if_neg (ne_of_mem_of_not_mem hq hr).symm, ctxOf, h.outside r hr, ctxOf]

variable (hready : Ready c qs b) (hplan : PlanLaw c) (hset : SettingsLaw c)
include hready

theorem Tidy.seat_seated (hq : q ∈ qs) (hnew : q ∉ done) : Seated c b qs (q :: done) (seat c b l q) :=
  h.seated.placed (fun r hr => by rw [ctxOf, hready.fresh r hr, FloorState.default, Context.default]) hq hnew

include hplan hset

/-- No claimant of another patch is released. -/
theorem Tidy.seat_kept (hq : q ∈ qs) (hnew : q ∉ done) {r : Patch} (hr : r ∉ qs) {y : Port}
    (hy : y ∈ claimantsOf (seat c b l q) r) : ¬ Released c (seat c b l q) y := by
  intro hrel
  have hout := h.outside r hr
  have hctx := h.seat_ctx hq hr
  rw [claimantsOf_seat_ne c b l (ne_of_mem_of_not_mem hq hr).symm, claimantsOf, hout] at hy
  obtain ⟨hmember, hquiet⟩ := hready.quiet r hr y hy
  obtain ⟨hkeyed, hwaits⟩ := hquiet (keys_of_released hrel).2.2
  obtain ⟨hd, -, hkeys⟩ := keysOn_of_released hplan hset (q := r) (by rwa [memberIn_congr (h.seat_records r)]) hrel
  obtain ⟨hring, hactive⟩ := keysOn_iff.1 hkeys
  have hfar : ∀ x ∈ qs, reads b y x = false := fun x _ => by rw [reads, hkeyed, Bool.false_and]
  rw [(seat_of_not_reads c b (h.not_reads hq hnew hfar)).1] at hd
  rcases h.ports y hfar with ⟨htx, -⟩ | ⟨-, x, -, -, htx, -⟩
  · rw [htx] at hd
    refine hwaits ?_ ?_ hd
    · rw [← entitled_congr (h.seat_records r) h.seat_holder hctx y]
      exact entitled_of_entitledRing hring
    · rwa [← writerActive_congr hctx]
  · rw [htx] at hd
    exact absurd hd (by simp [keyedTx])

/-- After the floor is put in place one round of keyings is all. -/
theorem Tidy.settles (hq : q ∈ qs) (hnew : q ∉ done) : settleKeys c (seat c b l q) = sync c (seat c b l q) := by
  have hm := h.seat_seated hready hq hnew
  refine settleKeys_eq_sync fun r hmix _ => ?_
  by_cases hr : r ∈ qs
  · by_cases hold : r ∈ q :: done
    · exact .inr ⟨(hm.seated r hr hold).2 hmix, fun p hp => hm.floor_kept hplan hset hr hp⟩
    · left
      intro p hp
      rw [(hm.waiting r hr hold).2.1] at hp
      exact absurd hp List.not_mem_nil
  · exact .inl fun p hp => h.seat_kept hready hplan hset hq hnew hr hp

theorem Tidy.arbitrateFresh_eq (hq : q ∈ qs) (hnew : q ∉ done) : arbitrateFresh c l q = sync c (seat c b l q) := by
  rw [h.seated.arbitrateFresh_eq
    (fun r hr => by rw [ctxOf, hready.fresh r hr, FloorState.default, Context.default]) hq hnew]
  exact h.settles hready hplan hset hq hnew

omit hplan hset in
/-- How a port that did not read one of the rings comes out of a round. -/
theorem Tidy.sync_port (hq : q ∈ qs) (hnew : q ∉ done) {p : Port} (hp : ∀ q ∈ qs, reads b p q = false) :
    KeyedSince c b (sync c (seat c b l q)) p := by
  have hview := sync_view c (seat c b l q)
  obtain ⟨mtx, mrx⟩ := seat_of_not_reads c b (h.not_reads hq hnew hp)
  have hm := h.seat_seated hready hq hnew
  rw [KeyedSince, look_sync_tx, look_sync_rx, mtx]
  rcases h.ports p hp with ⟨htx, hrx⟩ | ⟨hd, r, hentitled, hactive, htx, hrx⟩
  · rw [htx]
    rcases state_cases (look b.tx p) with hd | hf | hk
    · cases hkeys : keysOn c (seat c b l q) p with
      | none =>
        left
        refine ⟨by rw [syncedTx_dormant hd, hkeys, Option.elim_none], ?_⟩
        rw [syncedRx, hkeys, if_neg fun hs => absurd hs.2 (by decide), mrx, hrx]
      | some r =>
        obtain ⟨hring, hactive⟩ := keysOn_iff.1 hkeys
        refine .inr ⟨hd, r, ?_, ?_, ?_, ?_⟩
        · rw [hview.entitled]
          exact entitled_of_entitledRing hring
        · rwa [hview.writerActive]
        · rw [syncedTx_dormant hd, hkeys, Option.elim_some,
            keyUpFor_congr (h.seat_records r) h.seat_holder]
          exact keyedTx_congr (by rw [h.seat_rings]) c p _
        · rw [syncedRx, hkeys, mtx, htx, if_pos ⟨hd, rfl⟩, mrx, hrx]
    · left
      refine ⟨syncedTx_fault hf, ?_⟩
      rw [syncedRx_of_not_dormant (by rw [mtx, htx, hf]; decide), mrx, hrx]
    · left
      refine ⟨?_, by rw [syncedRx_of_not_dormant (by rw [mtx, htx]; exact not_dormant_of_keyed hk), mrx, hrx]⟩
      have hstays := hready.readers p hk hp
      rw [syncedTx_keyed hk] at hstays ⊢
      cases hz : (look b.tx p).reader with
      | none => rfl
      | some z =>
        rw [hz, Option.elim_some] at hstays
        have hout : z.ring ∉ qs := fun hin => by
          have hreads := hp z.ring hin
          rw [reads_iff.2 ⟨hk, z, hz, rfl⟩] at hreads
          exact absurd hreads (by decide)
        rw [Option.elim_some, followed_congr (h.seat_records _) h.seat_holder (by rw [h.seat_rings])
          (h.seat_ctx hq hout)]
        exact hstays
  · have hne : r ≠ q := fun he => by
      have hsilent := h.seated.silent hq hnew
      rw [← he, hactive] at hsilent
      exact absurd hsilent (by decide)
    have hctx : ctxOf (seat c b l q) r = ctxOf l r := by rw [ctxOf_seat, if_neg hne]
    have hstill : entitled c (seat c b l q) p r = true := by
      rw [entitled_congr ((h.seat_records r).trans (h.seated.records r).symm)
        (h.seat_holder.trans h.holder.symm) hctx]
      exact hentitled
    refine .inr ⟨hd, r, by rwa [hview.entitled], ?_, ?_, ?_⟩
    · rwa [hview.writerActive, writerActive_congr hctx]
    · rw [htx, followed_keyedTx hstill]
    · rw [syncedRx_of_not_dormant (by rw [mtx, htx]; simp [keyedTx]), mrx, hrx]

theorem Tidy.step (hq : q ∈ qs) (hnew : q ∉ done) : Tidy c b qs (q :: done) (arbitrateFresh c l q) := by
  have hm := h.seat_seated hready hq hnew
  have hview := sync_view c (seat c b l q)
  have hbeyond := (sync_beyondFloors c (seat c b l q)).trans ((seat_beyondFloors c b l q).trans h.beyond)
  rw [h.arbitrateFresh_eq hready hplan hset hq hnew]
  refine ⟨hm.sync hplan hset, hbeyond, fun r hr => ?outside, fun p hp => h.sync_port hready hq hnew hp,
    fun p hp => ?heard⟩
  case outside =>
    refine floorState_ext ((hview.ctx r).trans (h.seat_ctx hq hr)) (beyondFloors_freezing hbeyond r) ?_
    rw [claimantsOf_sync_of_kept fun y hy => h.seat_kept hready hplan hset hq hnew hr hy,
      claimantsOf_seat_ne c b l (ne_of_mem_of_not_mem hq hr).symm, claimantsOf, h.outside r hr, claimantsOf]
  case heard =>
    have hsame : look (sync c (seat c b l q)).rx p = look (seat c b l q).rx p := by
      rw [look_sync_rx, syncedRx]
      split
      · exact rxAsKeyed_of_heard hp _
      · rfl
    obtain ⟨d, hd⟩ := rx_seat c b l q p
    rw [hsame, hd]
    exact h.heard p hp

end

theorem tidy_refl {c : Settings} {b : Live} {qs : List Patch} (h : Ready c qs b) : Tidy c b qs [] b :=
  ⟨seated_refl h.fresh, rfl, fun _ _ => rfl, fun _ _ => .inl ⟨rfl, rfl⟩, fun _ _ => ⟨rfl, rfl⟩⟩

/-! ### After all arbitrations -/

section

variable {c : Settings} {b : Live} {qs : List Patch}

theorem arbitrated_all (c : Settings) (b : Live) (hqs : qs.Nodup) :
    Arbitrated c b qs (qs.foldl (arbitrateFresh c) b) := by
  obtain ⟨done, hdone, hall⟩ := foldl_arbitrated (P := Arbitrated c b) hqs (fun _ _ q _ _ hl => hl.step q)
    (arbitrated_refl c b)
  exact { hall with claims := fun q hq => hall.claims q ((hdone q).2 hq) }

theorem seated_all (hplan : PlanLaw c) (hset : SettingsLaw c) (hqs : qs.Nodup)
    (hb : ∀ q ∈ qs, look b.fla q = FloorState.default (activeRecord c b q).mode) :
    Seated c b qs qs (qs.foldl (arbitrateFresh c) b) := by
  have hnone : ∀ q ∈ qs, (ctxOf b q).restriction = none := fun q hq => by
    rw [ctxOf, hb q hq, FloorState.default, Context.default]
  obtain ⟨done, hdone, hall⟩ := foldl_arbitrated (P := Seated c b qs) hqs
    (fun _ _ q hq hnew hl => hl.step hplan hset hnone hq hnew) (seated_refl hb)
  exact { hall with
    waiting := fun q hq hnew => absurd hq hnew
    seated := fun q hq _ => hall.seated q hq ((hdone q).2 hq) }

theorem tidy_all (h : Ready c qs b) (hplan : PlanLaw c) (hset : SettingsLaw c) (hqs : qs.Nodup) :
    ∃ done, Tidy c b qs done (qs.foldl (arbitrateFresh c) b) := by
  obtain ⟨done, -, hall⟩ := foldl_arbitrated (P := Tidy c b qs) hqs
    (fun _ _ q hq hnew hl => hl.step h hplan hset hq hnew) (tidy_refl h)
  exact ⟨done, hall⟩

theorem settleKeys_following (c : Settings) (l : Live) : Following c (settleKeys c l) := by
  rw [settleKeys]
  exact handOn_following 18 c l

theorem arbitrateFresh_settles (c : Settings) (l : Live) (q : Patch) : ∃ m, arbitrateFresh c l q = settleKeys c m := by
  unfold arbitrateFresh installFloor install
  dsimp only
  exact ⟨_, rfl⟩

theorem arbitrateFresh_following (c : Settings) (l : Live) (q : Patch) : Following c (arbitrateFresh c l q) := by
  obtain ⟨m, hm⟩ := arbitrateFresh_settles c l q
  rw [hm]
  exact settleKeys_following c m

/-- Once a patch has been arbitrated no transmit machine has anything to do. -/
theorem foldl_arbitrateFresh_following (c : Settings) (b : Live) (hqs : qs ≠ []) :
    Following c (qs.foldl (arbitrateFresh c) b) := by
  obtain ⟨rs, q, rfl⟩ := (List.eq_nil_or_concat qs).resolve_left hqs
  rw [List.concat_eq_append, List.foldl_append, List.foldl_cons, List.foldl_nil]
  generalize rs.foldl (arbitrateFresh c) b = m
  exact arbitrateFresh_following c m q

end

end Sys2Proof.SwapFollows

/-! SUPPORT. What a swap comes to, clause by clause. -/

namespace Sys2Proof.Swaps

open Sys2Proof.Machine Sys2Proof.Safety Sys2Proof.Claims Sys2Proof.Patches Sys2Proof.ResetOrders Sys2Proof.Deletions
  Sys2Proof.Signalling Sys2Proof.Keying Sys2Proof.LiveRuns Sys2Proof.ClaimSteps Sys2Proof.Follow Sys2Proof.Rounds
  Sys2Proof.SwapStart Sys2Proof.SwapRounds Sys2Proof.SwapFollows

/-! ### A swap from its beginning to its end -/

/-- The same floors, rings, machines, bank and guest holder. -/
structure SameMachines (l m : Live) : Prop where
  tx : m.tx = l.tx
  rx : m.rx = l.rx
  fla : m.fla = l.fla
  rings : m.rings = l.rings
  active : m.active = l.active
  holder : m.guestHolder = l.guestHolder

theorem SameMachines.ctx {l m : Live} (h : SameMachines l m) (q : Patch) : ctxOf m q = ctxOf l q := by
  rw [ctxOf, h.fla, ctxOf]

theorem SameMachines.claims {l m : Live} (h : SameMachines l m) (q : Patch) : claimantsOf m q = claimantsOf l q := by
  rw [claimantsOf, h.fla, claimantsOf]

theorem SameMachines.view {l m : Live} (h : SameMachines l m) (c : Settings) : SameView c l m :=
  .of_fla h.active h.holder h.rings h.fla

/-- A swap of the involved patches: `u` is before it, `b` once the patches are started afresh, `t` once they are
arbitrated, `after` at the end of the event. -/
structure Swap (c : Settings) (involved : List Patch) (forced : Bool) (u b t after : Live) : Prop where
  begun : Begun c involved forced u b
  arbitrated : Arbitrated c b involved t
  ended : SameMachines t after
  seated : PlanLaw c → SettingsLaw c → Seated c b involved involved t
  tidy : Ready c involved b → PlanLaw c → SettingsLaw c → ∃ done, Tidy c b involved done t
  following : involved ≠ [] → Following c t
  nothing : involved = [] → t = b

theorem swap_of_begun {c : Settings} {involved : List Patch} {forced : Bool} {u b after : Live}
    (hnodup : involved.Nodup) (hb : Begun c involved forced u b)
    (hended : SameMachines (involved.foldl (arbitrateFresh c) b) after) :
    Swap c involved forced u b (involved.foldl (arbitrateFresh c) b) after where
  begun := hb
  arbitrated := arbitrated_all c b hnodup
  ended := hended
  seated hplan hset := seated_all hplan hset hnodup fun q hq => (hb.inside q hq).1
  tidy hready hplan hset := tidy_all hready hplan hset hnodup
  following := foldl_arbitrateFresh_following c b
  nothing hnil := by rw [hnil, List.foldl_nil]

/-! ### Involved patches -/

theorem involvedSet_eq (c : Settings) (l : Live) : involvedSet c l = Involved c l := rfl

theorem involved_nodup (c : Settings) (l : Live) : (Involved c l).Nodup :=
  List.Nodup.filter _ (by decide)

theorem record_of_not_involved {c : Settings} {l : Live} {q : Patch} (h : q ∉ Involved c l) {m : Live}
    (hm : m.active = otherBank l.active) : activeRecord c m q = activeRecord c l q := by
  rw [activeRecord, hm, activeRecord]
  by_contra hne
  exact h (List.mem_filter.2 ⟨mem_allPatches q, decide_eq_true (Ne.symm hne)⟩)

section

variable {c : Settings} {involved : List Patch} {forced : Bool} {u b t after : Live}
  (h : Swap c involved forced u b t after)
include h

theorem Swap.active : after.active = otherBank u.active :=
  h.ended.active.trans (h.arbitrated.active.trans h.begun.active)

theorem Swap.active_begun : after.active = b.active := h.active.trans h.begun.active.symm

theorem Swap.holder : after.guestHolder = u.guestHolder :=
  h.ended.holder.trans ((beyondFloors_fields h.arbitrated.beyond).2.2.2.2.1.trans h.begun.outside.holder)

theorem Swap.rings : after.rings = b.rings :=
  h.ended.rings.trans (beyondFloors_fields h.arbitrated.beyond).2.1

theorem Swap.member (q : Patch) (p : Port) : memberIn c after q p = memberIn c b q p :=
  memberIn_congr (activeRecord_congr h.active_begun c q) p

omit h in
/-- The beginning of a swap touches no receive machine but for its debounce of COR. -/
theorem rx_begun (hb : Begun c involved forced u b) (p : Port) : ∃ d, look b.rx p = { look u.rx p with cor := d } := by
  by_cases hf : Freed c involved u b p
  · rw [(hb.freed p hf).2]
    exact ⟨_, rfl⟩
  · by_cases hcut : forced = true ∧ ∃ q ∈ involved, reads u p q = true
    · rw [(hb.cut hcut.1 p hcut.2).2]
      split
      · rw [freshCor, Live.setRx_rx, look_put_same]
        exact ⟨_, rfl⟩
      · exact ⟨_, rfl⟩
    · rw [(hb.kept p hf fun hforced q hq => Bool.eq_false_iff.2 fun hr => hcut ⟨hforced, q, hq, hr⟩).2]
      exact ⟨_, rfl⟩

omit h in
theorem rx_state_begun (hb : Begun c involved forced u b) (p : Port) :
    (look b.rx p).rx = (look u.rx p).rx ∧ (look b.rx p).talk = (look u.rx p).talk ∧
      (look b.rx p).emg = (look u.rx p).emg := by
  obtain ⟨d, hd⟩ := rx_begun hb p
  rw [hd]
  exact ⟨rfl, rfl, rfl⟩

omit h in
theorem recordClaimants_begun (hb : Begun c involved forced u b) {after : Live} (ha : after.active = b.active)
    (q : Patch) : freshClaimants c { u with active := after.active } q = recordClaimants c b q := by
  refine List.filter_congr fun p _ => ?_
  have htalk : talkMember c { u with active := after.active } q p = talkMember c b q p := talkMember_congr ha q p
  rw [htalk, rxActive, (rx_state_begun hb p).1]

/-! ### What holds whatever the state -/

theorem Swap.startedFresh {q : Patch} (hq : q ∈ involved) : StartedFresh c u after q := by
  obtain ⟨hfla, hring⟩ := h.begun.inside q hq
  have hplain : ctxOf after q =
      { Context.default (activeRecord c b q).mode with floor := (ctxOf after q).floor } := by
    rw [h.ended.ctx, h.arbitrated.ctx q, ctxOf, hfla, FloorState.default]
  have hfreezing : (look after.fla q).freezing = false := by
    rw [h.ended.fla, beyondFloors_freezing h.arbitrated.beyond, hfla, FloorState.default]
  have hrecord := activeRecord_congr h.active_begun c q
  refine ⟨by rw [hplain, hrecord]; rfl, by rw [hplain]; rfl, by rw [hplain]; rfl, hfreezing, by rw [h.rings, hring],
    fun hinvalid => ?_⟩
  rw [hrecord] at hinvalid
  have hnone : ∀ p, talkMember c b q p = false := fun p => by
    rw [talkMember, memberIn, hinvalid, if_neg (by decide), Option.any_none]
  have habsent : ∀ p, Absent p b q := fun p => by
    rw [Absent, claimantsOf, ctxOf, hfla]
    exact ⟨List.not_mem_nil, List.not_mem_nil⟩
  have hgone := h.arbitrated.empty q hnone habsent
  rw [h.ended.ctx, h.ended.claims]
  exact ⟨List.eq_nil_iff_forall_not_mem.2 fun p => (hgone p).2,
    List.eq_nil_iff_forall_not_mem.2 fun p => (hgone p).1⟩

theorem Swap.claims {q : Patch} (hq : q ∈ involved) : claimantsOf after q =
    unreleased u after (freshClaimants c { u with active := after.active } q) := by
  rw [recordClaimants_begun h.begun h.active_begun, h.ended.claims, h.arbitrated.claims q hq, unreleased, unreleased]
  refine List.filter_congr fun p _ => ?_
  rw [(rx_state_begun h.begun p).1, h.ended.rx]

theorem Swap.outside {q : Patch} (hq : q ∉ involved) : look after.rings q = look u.rings q ∧
    (look after.fla q).freezing = (look u.fla q).freezing ∧ (ctxOf after q).mode = (ctxOf u q).mode ∧
    (ctxOf after q).restriction = (ctxOf u q).restriction ∧ (ctxOf after q).source = (ctxOf u q).source := by
  have hbegun : ctxOf b q = ctxOf u q := by rw [ctxOf, h.begun.outside.fla q hq, ctxOf]
  have hctx : ctxOf after q = { ctxOf u q with floor := (ctxOf after q).floor } := by
    rw [h.ended.ctx, h.arbitrated.ctx q, hbegun]
  refine ⟨by rw [h.rings, h.begun.outside.rings q hq], ?_, by rw [hctx], by rw [hctx], by rw [hctx]⟩
  rw [h.ended.fla, beyondFloors_freezing h.arbitrated.beyond, h.begun.outside.fla q hq]

/-- A port in FAULT that is not freed keeps its machine. -/
theorem Swap.fault_kept {p : Port} (hfault : (look u.tx p).state = .fault) (hf : ¬ Freed c involved u b p) :
    look after.tx p = look u.tx p := by
  have hbegun := (h.begun.kept p hf fun _ q _ => not_reads_of_fault hfault q).1
  rw [h.ended.tx, (h.arbitrated.faults p).1 (by rw [hbegun, hfault]), hbegun]

theorem Swap.freed_left {p : Port} (hfreed : FreedBySwap c involved u after p) : (look after.tx p).state ≠ .fault := by
  have hbegun := (h.begun.freed p (freed_of_freedBySwap h.active_begun hfreed)).1
  rw [h.ended.tx]
  exact (h.arbitrated.faults p).2 (by rw [hbegun]; decide)

/-! ### The floors of the involved patches -/

section

variable (hplan : PlanLaw c) (hset : SettingsLaw c) {q : Patch} (hq : q ∈ involved)
include hplan hset hq

theorem Swap.floor : (ctxOf after q).floor = freshFloor c b q := by
  rw [h.ended.ctx]
  exact ((h.seated hplan hset).seated q hq hq).1

omit hplan hset in
theorem Swap.begun_restriction : (ctxOf b q).restriction = none := by
  rw [ctxOf, (h.begun.inside q hq).1, FloorState.default, Context.default]

theorem Swap.floor_single (hm : (activeRecord c after q).mode = .single) :
    IsSelected c after q (freshClaimants c { u with active := after.active } q) (ctxOf after q).floor := by
  have hrecord := activeRecord_congr h.active_begun c q
  rw [hrecord] at hm
  rw [h.floor hplan hset hq, freshFloor, hm, recordClaimants_begun h.begun h.active_begun]
  have hcandidates : candidates c (b.setClaimants q (recordClaimants c b q)) q = recordClaimants c b q := by
    rw [candidates, claimantsOf_setClaimants, if_pos rfl, ctxOf_setClaimants, h.begun_restriction hq,
      List.filter_eq_self]
    exact fun _ _ => rfl
  have hkey : ∀ p, arbKey c (b.setClaimants q (recordClaimants c b q)) q p = 32 * rankIn c after q p + p.val := fun p => by
    rw [arbKey, rankIn_congr (l' := after) (l := b) hrecord p]
    rfl
  dsimp only
  rw [selectedFloor, hcandidates]
  cases hs : select (arbKey c (b.setClaimants q (recordClaimants c b q)) q) (recordClaimants c b q) with
  | none => exact .inl ⟨select_none_iff.1 hs, rfl⟩
  | some p =>
    refine .inr ⟨p, mem_of_select hs, rfl, fun r hr => ?_⟩
    rw [← hkey, ← hkey]
    exact select_le hs hr

theorem Swap.floor_mix (hm : (activeRecord c after q).mode = .mix) : (ctxOf after q).floor =
    fourLowest c (after.setClaimants q (freshClaimants c { u with active := after.active } q)) q := by
  have hrecord := activeRecord_congr h.active_begun c q
  rw [hrecord] at hm
  rw [h.floor hplan hset hq, freshFloor, hm, recordClaimants_begun h.begun h.active_begun]
  dsimp only
  refine (fourLowest_congr (l := b.setClaimants q (recordClaimants c b q))
    (l' := after.setClaimants q (recordClaimants c b q)) hrecord (fun p => ?_) ?_ ?_).symm
  · rw [Live.setClaimants_rx, Live.setClaimants_rx, h.ended.rx]
    exact (h.arbitrated.rx p).1
  · rw [claimantsOf_setClaimants, claimantsOf_setClaimants, if_pos rfl, if_pos rfl]
  · rw [ctxOf_setClaimants, ctxOf_setClaimants, h.begun_restriction hq]
    exact (h.startedFresh hq).2.1

end

/-! ### From a lawful state -/

section

variable (hinvolved : involved = Involved c u) (hlaws : FollowPremises c u)
include hinvolved

theorem Swap.record_outside {q : Patch} (hq : q ∉ involved) : activeRecord c b q = activeRecord c u q :=
  record_of_not_involved (hinvolved ▸ hq) h.begun.active

omit hinvolved in
theorem Swap.ctx_outside {q : Patch} (hq : q ∉ involved) : ctxOf b q = ctxOf u q := by
  rw [ctxOf, h.begun.outside.fla q hq, ctxOf]

theorem Swap.entitled_outside {q : Patch} (hq : q ∉ involved) (p : Port) : entitled c b p q = entitled c u p q :=
  entitled_congr (h.record_outside hinvolved hq) h.begun.outside.holder (h.ctx_outside hq) p

include hlaws

/-- A claimant of a patch that is not involved is not freed from FAULT, and not keyed where its COR would be ignored. -/
theorem Swap.quiet {r : Patch} (hr : r ∉ involved) {y : Port} (hy : y ∈ claimantsOf b r) :
    (memberIn c b r y).isSome = true ∧
      (ignoresWhenKeyed (look c.ports y) = true → keyed (look b.tx y) = false ∧
        (entitled c b y r = true → writerActive b r = true → (look b.tx y).state ≠ .dormant)) := by
  obtain ⟨hplan, -, hclaims, -, hignored, hfollows⟩ := hlaws
  rw [claimantsOf, h.begun.outside.fla r hr] at hy
  obtain ⟨htalk, hactive⟩ := hclaims.1 r y hy
  have hmember : (memberIn c b r y).isSome = true := by
    rw [memberIn_congr (h.record_outside hinvolved hr)]
    exact isSome_of_talkMember htalk
  refine ⟨hmember, fun hi => ?_⟩
  have hkeyed : keyed (look u.tx y) = false := by
    rw [Bool.eq_false_iff]
    intro hk
    rw [hignored y (by rw [corIgnored, hk, hi]; rfl)] at hactive
    exact absurd hactive (by decide)
  have hfree : ¬ Freed c involved u b y := fun hf => by
    rw [not_member_of_freed hplan hf hr] at hmember
    exact absurd hmember (by decide)
  have htx := (h.begun.kept y hfree fun _ q _ => by rw [reads, hkeyed, Bool.false_and]).1
  rw [htx]
  refine ⟨hkeyed, fun hentitled hwriter hd => ?_⟩
  rw [h.entitled_outside hinvolved hr] at hentitled
  rw [writerActive_congr (h.ctx_outside hr)] at hwriter
  have hkeys := keysOn_of_entitled hplan hentitled hwriter
  rw [keysOn_none_of_following hfollows hd] at hkeys
  exact absurd hkeys (by simp)

omit hinvolved hlaws in
/-- A port that is keyed as the arbitrations start was keyed so before. -/
theorem Swap.keyed_before {p : Port} (hk : keyed (look b.tx p) = true) :
    look b.tx p = look u.tx p ∧ look b.rx p = look u.rx p := by
  have hne : look b.tx p ≠ TxPort.dormant := fun he => by
    rw [he] at hk
    exact absurd hk (by decide)
  refine h.begun.kept p (fun hf => hne (h.begun.freed p hf).1) fun hforced q hq => ?_
  rw [Bool.eq_false_iff]
  exact fun hreads => hne (h.begun.cut hforced p ⟨q, hq, hreads⟩).1

theorem Swap.ready : Ready c involved b where
  fresh q hq := (h.begun.inside q hq).1
  quiet r hr y hy := h.quiet hinvolved hlaws hr hy
  readers p hk hp := by
    obtain ⟨-, -, -, -, -, hfollows⟩ := hlaws
    have htx := (h.keyed_before hk).1
    have hstays := following_iff.1 hfollows p
    have hku := hk
    rw [htx] at hku
    rw [htx, syncedTx_keyed hku]
    rw [syncedTx_keyed hku] at hstays
    cases hz : (look u.tx p).reader with
    | none => rfl
    | some z =>
      rw [hz, Option.elim_some] at hstays
      have hout : z.ring ∉ involved := fun hin => by
        have hreads := hp z.ring hin
        rw [reads_of_look htx, reads_iff.2 ⟨hku, z, hz, rfl⟩] at hreads
        exact absurd hreads (by decide)
      rw [Option.elim_some, followed_congr (h.record_outside hinvolved hout) h.begun.outside.holder
        (h.begun.outside.heads _) (h.ctx_outside hout)]
      exact hstays

theorem Swap.tidied : ∃ done, Tidy c b involved done t :=
  h.tidy (h.ready hinvolved hlaws) hlaws.1 hlaws.2.1

/-- At the end of a swap no transmit machine has anything to do. -/
theorem Swap.settled : Following c after := by
  by_cases hnil : involved = []
  · have hout : ∀ q, q ∉ involved := fun q => by
      rw [hnil]
      exact List.not_mem_nil
    have hkept : ∀ p, look b.tx p = look u.tx p := fun p => by
      refine (h.begun.kept p (fun hf => ?_) fun _ q hq => absurd hq (hout q)).1
      obtain ⟨q, hq, -⟩ := affected_of_freed hf
      exact hout q hq
    have hview : SameView c u b :=
      ⟨fun q => h.record_outside hinvolved (hout q), h.begun.outside.holder,
        table_ext fun q => h.begun.outside.rings q (hout q), fun q => h.ctx_outside (hout q)⟩
    have hb : Following c b := Following.congr hlaws.2.2.2.2.2 hview (table_ext hkept)
    have hend := h.ended
    rw [h.nothing hnil] at hend
    exact Following.congr hb (hend.view c) hend.tx
  · exact Following.congr (h.following hnil) (h.ended.view c) h.ended.tx

/-- A port that is DORMANT as the arbitrations start has keyed at the head, or is DORMANT and need not key. -/
theorem Swap.keyedOrDormant {p : Port} (hd : (look b.tx p).state = .dormant) :
    KeyedOrDormant c after p (look b.tx p) := by
  obtain ⟨done, htidy⟩ := h.tidied hinvolved hlaws
  have hview := h.ended.view c
  refine keyedOrDormant_of_synced hd ?_
  rw [h.ended.tx]
  have hfar : ∀ q ∈ involved, reads b p q = false := fun q _ => by simp [reads, keyed, hd]
  rcases htidy.ports p hfar with ⟨htx, -⟩ | ⟨-, r, hentitled, hactive, htx, -⟩
  · have hstays := following_iff.1 (h.settled hinvolved hlaws) p
    rw [h.ended.tx, htx] at hstays
    rw [htx, hstays]
  · rw [syncedTx_dormant hd, hview.keysOn, keysOn_of_entitled hlaws.1 hentitled hactive, Option.elim_some, htx]
    have hfields := beyondFloors_fields htidy.beyond
    rw [hview.keyUpFor, hview.keyedTx, keyUpFor_congr (htidy.seated.records r) htidy.holder]
    exact (keyedTx_congr (by rw [htidy.rings]) c p _).symm

omit hinvolved hlaws in
/-- Who is freed by the swap in the words of the statement is freed, and the other way round by the law of the plan. -/
theorem Swap.freed_iff (hplan : PlanLaw c) {p : Port} : FreedBySwap c involved u after p ↔ Freed c involved u b p := by
  refine ⟨freed_of_freedBySwap h.active_begun, fun hf => ⟨hf.1, affected_of_freed hf, fun q hq => ?_⟩⟩
  rw [h.member]
  exact not_member_of_freed hplan hf hq

theorem Swap.outside_kept {q : Patch} (hq : q ∉ involved) : look after.fla q = look u.fla q := by
  obtain ⟨done, htidy⟩ := h.tidied hinvolved hlaws
  rw [h.ended.fla, htidy.outside q hq, h.begun.outside.fla q hq]

/-- A port that read no involved ring and is not freed has followed the floors. -/
theorem Swap.follows {p : Port} (hfree : ¬ Freed c involved u b p) (hp : ∀ q ∈ involved, reads u p q = false) :
    FollowsAt c u after p := by
  obtain ⟨done, htidy⟩ := h.tidied hinvolved hlaws
  have htx := (h.begun.kept p hfree fun _ => hp).1
  have hfar : ∀ q ∈ involved, reads b p q = false := fun q hq => by
    rw [reads_of_look htx]
    exact hp q hq
  by_cases hd : (look u.tx p).state = .dormant
  · refine ⟨fun hf => ?_, fun _ => ?_, fun z _ hk => absurd hd (not_dormant_of_keyed hk)⟩
    · rw [hd] at hf
      exact absurd hf (by decide)
    · rw [← htx]
      exact h.keyedOrDormant hinvolved hlaws (by rw [htx, hd])
  · rcases htidy.ports p hfar with ⟨hsame, -⟩ | ⟨hdormant, -⟩
    · refine followsAt_of_followed (m := after) (.inl ⟨by rw [h.ended.tx, hsame, htx], fun q hreads hon => ?_⟩)
        (.of_following (h.settled hinvolved hlaws))
      have hout : q ∉ involved := fun hq => by
        rw [hp q hq] at hreads
        exact absurd hreads (by decide)
      rw [ctxOf, h.outside_kept hinvolved hlaws hout] at hon
      have hgranted := hlaws.2.2.2.1 p q (by simpa [onFloor, ctxOf] using hon)
      rw [hreads] at hgranted
      exact absurd hgranted (by decide)
    · rw [htx] at hdormant
      exact absurd hdormant hd

theorem Swap.listeners {q : Patch} : ListenersKeyed c u after q := by
  intro r hd hlisten hp hs hfloor hoff
  have hfree : ¬ Freed c involved u b r := fun hf => by
    rw [hf.1] at hd
    exact absurd hd (by decide)
  have hfollows := h.follows hinvolved hlaws hfree fun x _ => by simp [reads, keyed, hd]
  exact listener_keys hlaws.1 (hfollows.2.1 hd) hlisten (by rwa [h.holder]) hs hfloor hoff

/-- How the receive side of a port that read no involved ring comes out of a swap. -/
theorem Swap.received_far {p : Port} (hfar : ∀ q ∈ involved, reads b p q = false) :
    look after.rx p = look b.rx p ∧ look after.tx p = look b.tx p ∨
      look after.rx p = rxAsKeyed c p (look b.rx p) ∧ (look after.tx p).state = .keying := by
  obtain ⟨done, htidy⟩ := h.tidied hinvolved hlaws
  rw [h.ended.tx, h.ended.rx]
  rcases htidy.ports p hfar with ⟨htx, hrx⟩ | ⟨-, r, -, -, htx, hrx⟩
  · exact .inl ⟨hrx, htx⟩
  · exact .inr ⟨hrx, by rw [htx]; rfl⟩

/-- Receive states and talk-time timers change by keyings alone (R34, R126). -/
theorem Swap.states_kept (p : Port) :
    ((look after.rx p).rx = (look u.rx p).rx ∧ (look after.rx p).talk = (look u.rx p).talk) ∨
      ((look u.rx p).rx = .active ∧ (look after.rx p).rx = .quiet ∧ (look after.rx p).talk = none ∧
        Ignored c after p) := by
  obtain ⟨hrx, htalk, -⟩ := rx_state_begun h.begun p
  rw [← hrx, ← htalk]
  by_cases hfar : ∀ q ∈ involved, reads b p q = false
  · rcases h.received_far hinvolved hlaws hfar with ⟨hsame, -⟩ | ⟨hkeyed, hstate⟩
    · rw [hsame]
      exact .inl ⟨rfl, rfl⟩
    · rw [hkeyed]
      by_cases hi : ignoresWhenKeyed (look c.ports p) = true
      · refine (RxStep.keyed c p (look b.rx p)).2.imp_right fun ⟨ha, hq, ht⟩ => ⟨ha, hq, ht, .inl hstate, ?_⟩
        exact ignoresWhenKeyed_iff.1 hi
      · rw [rxAsKeyed_of_heard (Bool.not_eq_true _ ▸ hi)]
        exact .inl ⟨rfl, rfl⟩
  · left
    obtain ⟨done, htidy⟩ := h.tidied hinvolved hlaws
    rw [h.ended.rx]
    by_cases hi : ignoresWhenKeyed (look c.ports p) = true
    · simp only [not_forall, Bool.not_eq_false] at hfar
      obtain ⟨q, -, hreads⟩ := hfar
      have hk := keyed_of_reads hreads
      obtain ⟨htx, hsame⟩ := h.keyed_before hk
      have hquiet := hlaws.2.2.2.2.1 p (by rw [corIgnored, ← htx, hk, hi]; rfl)
      rcases (h.arbitrated.rx p).2 with hkept | ⟨ha, -⟩
      · exact hkept
      · rw [rxActive, ← hsame, ha] at hquiet
        exact absurd hquiet (by decide)
    · exact htidy.heard p (Bool.not_eq_true _ ▸ hi)

theorem Swap.receiveKept : ReceiveKept c u after := by
  intro p
  refine ⟨?_, h.states_kept hinvolved hlaws p, fun hd hafter => ?_⟩
  · rw [h.ended.rx, (h.arbitrated.rx p).1, (rx_state_begun h.begun p).2.2]
  · have hfree : ¬ Freed c involved u b p := fun hf => by
      rw [hf.1] at hd
      exact absurd hd (by decide)
    have hnot : ∀ q, reads u p q = false := fun q => by simp [reads, keyed, hd]
    obtain ⟨htx, hrx⟩ := h.begun.kept p hfree fun _ q _ => hnot q
    rcases h.received_far hinvolved hlaws fun q _ => (reads_of_look htx q).trans (hnot q) with ⟨hsame, -⟩ | ⟨-, hkeying⟩
    · rw [hsame, hrx]
    · rw [hafter] at hkeying
      exact absurd hkeying (by decide)

/-- What a swap does from a lawful state. -/
theorem Swap.from_lawful :
    ReceiveKept c u after ∧
    (∀ q : Patch, q ∉ involved → look after.fla q = look u.fla q) ∧
    (∀ q ∈ involved, ListenersKeyed c u after q) ∧
    ∀ p : Port, (FreedBySwap c involved u after p → KeyedOrDormant c after p TxPort.dormant) ∧
      (¬ FreedBySwap c involved u after p → (∀ q ∈ involved, reads u p q = false) → FollowsAt c u after p) := by
  refine ⟨h.receiveKept hinvolved hlaws, fun q hq => h.outside_kept hinvolved hlaws hq,
    fun q _ => h.listeners hinvolved hlaws, fun p => ⟨fun hf => ?_, fun hf hp => ?_⟩⟩
  · have hdormant := (h.begun.freed p ((h.freed_iff hlaws.1).1 hf)).1
    have hkeyed := h.keyedOrDormant hinvolved hlaws (p := p) (by rw [hdormant]; rfl)
    rwa [hdormant] at hkeyed
  · exact h.follows hinvolved hlaws (mt (h.freed_iff hlaws.1).2 hf) hp

end

end

/-! ### The readers a forced switch cuts -/

theorem Swap.readersCut {c : Settings} {involved : List Patch} {u b t after : Live}
    (h : Swap c involved true u b t after) : ReadersCut c involved u after := by
  intro q hq p hreads
  obtain ⟨htx, hrx⟩ := h.begun.cut rfl p ⟨q, hq, hreads⟩
  refine ⟨?_, fun hlaws hinvolved => ⟨?_, fun hd => ?_⟩⟩
  · rw [h.ended.tx]
    exact h.arbitrated.cold p (.inl (by rw [htx]; rfl))
  · have hkeyed := h.keyedOrDormant hinvolved hlaws (p := p) (by rw [htx]; rfl)
    rwa [htx] at hkeyed
  · rcases h.received_far hinvolved hlaws (fun r _ => reads_dormant htx r) with ⟨hsame, -⟩ | ⟨-, hkeying⟩
    · rw [hsame, hrx]
    · rw [hd] at hkeying
      exact absurd hkeying (by decide)

end Sys2Proof.Swaps

/-! SUPPORT. The order SWITCH PLAN: its refusals, and the swap, the forced switch or the pending one. -/

namespace Sys2Proof.SwitchPlans

open Sys2Proof.Machine Sys2Proof.Safety Sys2Proof.Claims Sys2Proof.Patches Sys2Proof.Carrying Sys2Proof.ResetOrders
  Sys2Proof.Deletions Sys2Proof.Signalling Sys2Proof.SwapStart Sys2Proof.SwapRounds Sys2Proof.Swaps

/-! ### A condition raised is recorded -/

theorem mem_insertRaised {e x : Source × Cond} {es : List (Source × Cond)} :
    x ∈ insertRaised e es ↔ x = e ∨ x ∈ es := by
  induction es with
  | nil => simp [insertRaised]
  | cons y ys ih =>
    unfold insertRaised
    split
    · exact List.mem_cons
    · rw [List.mem_cons, ih, List.mem_cons]
      tauto

theorem mem_recordingOrder {x : Source × Cond} {es : List (Source × Cond)} : x ∈ recordingOrder es ↔ x ∈ es := by
  induction es with
  | nil => rfl
  | cons e es ih =>
    rw [recordingOrder, List.foldr_cons, mem_insertRaised, List.mem_cons]
    exact or_congr_right ih

theorem bitByte_bit (e : Cond) : (bitByte e.bit).getLsbD e.bit = true := by
  cases e <;> decide

/-- A condition stands in EXC and ACC of its source. -/
def Stands (e : Source × Cond) (l : Live) : Prop :=
  (look l.exc e.1).getLsbD e.2.bit = true ∧ (look l.acc e.1).getLsbD e.2.bit = true

theorem stands_record_self (masks : Vector Byte 27) (l : Live) (e : Source × Cond) : Stands e (record masks l e) := by
  constructor
  · rw [record, look_put_same, BitVec.getLsbD_or, bitByte_bit, Bool.or_true]
  · rw [record, look_put_same, BitVec.getLsbD_or, bitByte_bit, Bool.or_true]

theorem stands_record {e x : Source × Cond} (masks : Vector Byte 27) {l : Live} (h : Stands e l) :
    Stands e (record masks l x) := by
  obtain ⟨hexc, hacc⟩ := h
  by_cases hs : e.1 = x.1
  · constructor
    · rw [record, hs, look_put_same, BitVec.getLsbD_or, ← hs, hexc, Bool.true_or]
    · rw [record, hs, look_put_same, BitVec.getLsbD_or, ← hs, hacc, Bool.true_or]
  · constructor
    · rw [record, look_put_ne _ _ _ _ hs]
      exact hexc
    · rw [record, look_put_ne _ _ _ _ hs]
      exact hacc

theorem stands_foldl_record {e : Source × Cond} (masks : Vector Byte 27) (es : List (Source × Cond)) {l : Live}
    (h : e ∈ es ∨ Stands e l) : Stands e (es.foldl (record masks) l) := by
  induction es generalizing l with
  | nil => exact h.resolve_left List.not_mem_nil
  | cons x es ih =>
    rw [List.foldl_cons]
    rcases h with h | h
    · rcases List.mem_cons.1 h with rfl | h
      · exact ih (.inr (stands_record_self masks l e))
      · exact ih (.inl h)
    · exact ih (.inr (stands_record masks h))

/-- A raised condition stands once the event is over (R144, R145). -/
theorem stands_recordRaised {e : Source × Cond} (c : Settings) {l : Live} (h : e ∈ l.raised) :
    Stands e (recordRaised c l) := stands_foldl_record c.masks _ (.inl (mem_recordingOrder.2 h))

/-! ### A swap, and a forced switch, to the end of the event -/

/-- The switch once it has ended (R125 step 5). -/
abbrev endedSwitch (involved : List Patch) (outcome : LastOutcome) : SwitchCtl :=
  { state := .none, involved := [], grace := none, last := outcome, lastInvolved := involved }

theorem swap_switch (c : Settings) (involved : List Patch) (outcome : LastOutcome) (l : Live) :
    (swap c involved outcome l).switch = endedSwitch involved outcome := by
  rw [swap_eq]
  rfl

theorem closeEvent_swap (c : Settings) (involved : List Patch) (outcome : LastOutcome) (l : Live) :
    closeEvent c (swap c involved outcome l) = recordRaised c (swap c involved outcome l) :=
  closeEvent_notPending _ _ (switchPending_false (by rw [swap_switch]))

theorem sameMachines_closeEvent_swap (c : Settings) (involved : List Patch) (outcome : LastOutcome) (l : Live) :
    SameMachines (involved.foldl (arbitrateFresh c) (swapBegun c involved l))
      (closeEvent c (swap c involved outcome l)) := by
  rw [closeEvent_swap, swap_eq]
  generalize involved.foldl (arbitrateFresh c) (swapBegun c involved l) = t
  exact ⟨recordRaised_tx _ _, recordRaised_rx _ _, recordRaised_fla _ _, recordRaised_rings _ _,
    recordRaised_active _ _, recordRaised_guestHolder _ _⟩

theorem switchDone_raised (c : Settings) (involved : List Patch) (outcome : LastOutcome) (l : Live) :
    (systemSource, Cond.switchDone) ∈ (swap c involved outcome l).raised := by
  rw [swap_eq]
  generalize involved.foldl (arbitrateFresh c) (swapBegun c involved l) = t
  exact List.mem_append_right _ (List.mem_singleton.2 rfl)

theorem overridesKept_of_same {l m : Live} (h : m.overrides = l.overrides) : OverridesKept l m := overrides_fields h

/-- What a swap from `k` leaves, said of the state `u` before it; they differ where a forced switch has cut readers. -/
theorem swapped_closeEvent {c : Settings} {involved : List Patch} {forced : Bool} {outcome : LastOutcome} {u k : Live}
    (hnodup : involved.Nodup) (hb : Begun c involved forced u (swapBegun c involved k))
    (hk : k.overrides = u.overrides) :
    Swap c involved forced u (swapBegun c involved k) (involved.foldl (arbitrateFresh c) (swapBegun c involved k))
        (closeEvent c (swap c involved outcome k)) ∧
      Swapped c involved outcome u (closeEvent c (swap c involved outcome k)) := by
  have hswap := swap_of_begun hnodup hb (sameMachines_closeEvent_swap c involved outcome k)
  have hswitch : (closeEvent c (swap c involved outcome k)).switch = endedSwitch involved outcome := by
    rw [closeEvent_swap, recordRaised_switch, swap_switch]
  have hover : OverridesKept u (closeEvent c (swap c involved outcome k)) :=
    overridesKept_of_same ((closeEvent_overrides c _).trans ((swap_same c involved outcome k).1.trans hk))
  have hstands : Stands (systemSource, .switchDone) (closeEvent c (swap c involved outcome k)) := by
    rw [closeEvent_swap]
    exact stands_recordRaised c (switchDone_raised c involved outcome k)
  generalize closeEvent c (swap c involved outcome k) = after at *
  generalize involved.foldl (arbitrateFresh c) (swapBegun c involved k) = t at *
  refine ⟨hswap, hswap.active, hswitch, fun q hq => hswap.startedFresh hq, fun q hq => hswap.claims hq,
    fun hplan hset q hq hm => hswap.floor_single hplan hset hq hm,
    fun hplan hset q hq hm => hswap.floor_mix hplan hset hq hm, fun q hq => hswap.outside hq,
    fun p hp => hswap.freed_left hp, fun p hp ha => ?_, fun hplan p q hp hq hm => ?_,
    fun hlaws hinvolved => hswap.from_lawful hinvolved hlaws, hover, hstands.1, hstands.2⟩
  · rw [hswap.fault_kept hp fun hf => ha (affected_of_freed hf), hp]
  · refine hswap.fault_kept hp fun hf => hm ?_
    rw [hswap.member]
    exact not_member_of_freed hplan hf hq

theorem swapped_unforced (c : Settings) (u : Live) (outcome : LastOutcome) :
    Swapped c (Involved c u) outcome u (closeEvent c (swap c (Involved c u) outcome u)) :=
  (swapped_closeEvent (involved_nodup c u) (begun_unforced c _ u) rfl).2

theorem swapped_forced (c : Settings) (u : Live) :
    Swapped c (Involved c u) .forced u (closeEvent c (force c (Involved c u) u)) ∧
      ReadersCut c (Involved c u) u (closeEvent c (force c (Involved c u) u)) := by
  have hcut : ((Involved c u).foldl (cutPatch c) u).overrides = u.overrides :=
    (SameElsewhere.foldl _ (cutPatch_same c) (Involved c u) u).1
  obtain ⟨hswap, hswapped⟩ :=
    swapped_closeEvent (outcome := .forced) (involved_nodup c u) (begun_forced c (Involved c u) u) hcut
  exact ⟨hswapped, hswap.readersCut⟩

/-! ### A switch set pending -/

theorem foldl_freezePatch (qs : List Patch) (l : Live) : qs.foldl freezePatch l =
    { l with fla := mapTable (fun q f => { f with freezing := f.freezing || qs.contains q }) l.fla } := by
  induction qs generalizing l with
  | nil =>
    have hsame : mapTable (fun q f => { f with freezing := f.freezing || List.contains [] q }) l.fla = l.fla :=
      table_ext fun q => by
        rw [look_mapTable]
        simp
    rw [hsame]
    rfl
  | cons r qs ih =>
    rw [List.foldl_cons, ih]
    refine congrArg (fun v => { l with fla := v }) (table_ext fun q => ?_)
    rw [look_mapTable, look_mapTable, freezePatch, Live.setFreezing_fla, look_put]
    by_cases hq : q = r
    · subst hq
      simp
    · simp [hq]

theorem setPending_eq (qs : List Patch) (grace : Nat) (l : Live) : setPending qs grace l =
    { l with
      fla := Vector.ofFn (fun q => { look l.fla q with freezing := (look l.fla q).freezing || qs.contains q })
      switch := { l.switch with state := .pending, involved := qs, grace := some (8000 * grace) } } := by
  rw [setPending, foldl_freezePatch]
  rfl

/-! ### The order -/

theorem anyProtected_affected_iff {c : Settings} {qs : List Patch} :
    anyProtected c (affected c qs) = true ↔ ∃ p, AffectedBy c qs p ∧ look c.flags p = true := by
  simp only [anyProtected, List.any_eq_true, Bool.and_eq_true, affected_iff, mem_allPorts, true_and]

theorem any_overridden_iff {l : Live} {qs : List Patch} :
    qs.any (overridden l) = true ↔ ∃ q ∈ qs, Overridden l q := by
  simp only [List.any_eq_true, overridden_iff]

theorem all_idle_iff {c : Settings} {l : Live} {qs : List Patch} :
    qs.all (idle c l) = true ↔ ∀ q ∈ qs, Idle c l q := by
  simp only [List.all_eq_true, idle_iff]

theorem orderSwitchPlan_refused {c : Settings} {l : Live} {st : Status} (g : Byte)
    (h : firstRefusal [(switchPending l, .pending), (anyProtected c (affected c (Involved c l)), .protectedPort),
      ((Involved c l).any (overridden l), .override)] = some st) : orderSwitchPlan [g] c l = refuse st c l := by
  unfold orderSwitchPlan
  rw [if_neg (by simp)]
  simp only [involvedSet_eq, h]

theorem orderSwitchPlan_started {c : Settings} {l : Live} (g : Byte)
    (h : firstRefusal [(switchPending l, .pending), (anyProtected c (affected c (Involved c l)), .protectedPort),
      ((Involved c l).any (overridden l), .override)] = none) :
    orderSwitchPlan [g] c l =
      { cfg := c
        live := startSwitch c (min g.toNat 30) l
        status := switchStatus (30 < g.toNat) (startSwitch c (min g.toNat 30) l)
        data := [patchSetByte (Involved c l), switchByte (startSwitch c (min g.toNat 30) l).switch.state] } := by
  unfold orderSwitchPlan
  rw [if_neg (by simp)]
  simp only [involvedSet_eq, h]
  rfl

section

variable {c : Settings} {l : Live} {g : Nat}

theorem startSwitch_idle (h : ∀ q ∈ Involved c l, Idle c l q) :
    startSwitch c g l = closeEvent c (swap c (Involved c l) .done l) := by
  unfold startSwitch
  rw [involvedSet_eq]
  exact if_pos (all_idle_iff.2 h)

theorem startSwitch_forced (h : ¬ ∀ q ∈ Involved c l, Idle c l q) :
    startSwitch c 0 l = closeEvent c (force c (Involved c l) l) := by
  unfold startSwitch
  rw [involvedSet_eq]
  exact (if_neg (mt all_idle_iff.1 h)).trans (if_pos rfl)

theorem startSwitch_pending (h : ¬ ∀ q ∈ Involved c l, Idle c l q) (hg : g ≠ 0) :
    startSwitch c g l = setPending (Involved c l) g l := by
  unfold startSwitch
  rw [involvedSet_eq]
  exact (if_neg (mt all_idle_iff.1 h)).trans (if_neg hg)

end

theorem switchStatus_ended {after : Live} (h : after.switch.state = .none) (b : Bool) :
    statusByte (switchStatus b after) = if b = true then 0x02 else 0x00 := by
  cases b <;> simp [switchStatus, switchPending, h, statusByte]

theorem switchStatus_waiting {after : Live} (h : after.switch.state = .pending) (b : Bool) :
    statusByte (switchStatus b after) = if b = true then 0x02 else 0x01 := by
  cases b <;> simp [switchStatus, switchPending, h, statusByte]

theorem switchPlan_answered {g : Byte} {s : State} (h : Holds s 0x30 [g]) : exec (.switchPlan [g]) s =
    .next (answered 0x30 (orderSwitchPlan [g] s.cfg (catchUp s).live) (catchUp s)) := by
  show Host.Outcome.next (carryOut 0x30 [g] (orderSwitchPlan [g]) s) = _
  rw [carryOut_of_holds _ h]

/-- An order that starts a switch which ends at once answers so. -/
theorem carriesOut_of_ended {g : Byte} {s : State} (h : Holds s 0x30 [g]) {l : Live}
    (hstarts : firstRefusal [(switchPending (catchUp s).live, .pending),
      (anyProtected s.cfg (affected s.cfg (Involved s.cfg (catchUp s).live)), .protectedPort),
      ((Involved s.cfg (catchUp s).live).any (overridden (catchUp s).live), .override)] = none)
    (hl : startSwitch s.cfg (min g.toNat 30) (catchUp s).live = l) (hended : l.switch.state = .none) :
    Answers (.switchPlan [g]) s (withReply 0x30 (if 30 < g.toNat then 0x02 else 0x00)
      [patchSetByte (Involved s.cfg (catchUp s).live), 0] (withCore s.cfg l (catchUp s))) := by
  have hresult := orderSwitchPlan_started g hstarts
  rw [hl] at hresult
  have hanswers := answers_result (switchPlan_answered h) hresult
  rw [switchStatus_ended hended, hended, switchByte] at hanswers
  simpa only [decide_eq_true_eq] using hanswers

theorem min_thirty_ne_zero {g : Byte} (h : g ≠ 0) : min g.toNat 30 ≠ 0 := by
  have hpos : g.toNat ≠ 0 := fun he => h (BitVec.eq_of_toNat_eq he)
  omega

theorem setPending_answers {g : Byte} {s : State} (h : Holds s 0x30 [g])
    (hstarts : firstRefusal [(switchPending (catchUp s).live, .pending),
      (anyProtected s.cfg (affected s.cfg (Involved s.cfg (catchUp s).live)), .protectedPort),
      ((Involved s.cfg (catchUp s).live).any (overridden (catchUp s).live), .override)] = none)
    (hbusy : ¬ ∀ q ∈ Involved s.cfg (catchUp s).live, Idle s.cfg (catchUp s).live q) (hg : g ≠ 0) :
    Answers (.switchPlan [g]) s (withReply 0x30 (if 30 < g.toNat then 0x02 else 0x01)
      [patchSetByte (Involved s.cfg (catchUp s).live), 1]
      (withCore s.cfg
        { (catchUp s).live with
          fla := Vector.ofFn (fun q =>
            { look (catchUp s).live.fla q with
              freezing := (look (catchUp s).live.fla q).freezing || (Involved s.cfg (catchUp s).live).contains q })
          switch :=
            { (catchUp s).live.switch with
              state := .pending
              involved := Involved s.cfg (catchUp s).live
              grace := some (8000 * min g.toNat 30) } } (catchUp s))) := by
  have hresult := orderSwitchPlan_started g hstarts
  rw [startSwitch_pending hbusy (min_thirty_ne_zero hg)] at hresult
  have hstate : (setPending (Involved s.cfg (catchUp s).live) (min g.toNat 30) (catchUp s).live).switch.state = .pending := by
    rw [setPending_eq]
  have hanswers := answers_result (switchPlan_answered h) hresult
  rw [switchStatus_waiting hstate, hstate, switchByte, setPending_eq] at hanswers
  simpa only [decide_eq_true_eq] using hanswers

theorem refuses_of_firstRefusal {g : Byte} {s : State} (h : Holds s 0x30 [g]) {st : Status}
    (hr : firstRefusal [(switchPending (catchUp s).live, .pending),
      (anyProtected s.cfg (affected s.cfg (Involved s.cfg (catchUp s).live)), .protectedPort),
      ((Involved s.cfg (catchUp s).live).any (overridden (catchUp s).live), .override)] = some st) :
    Refuses (.switchPlan [g]) 0x30 (statusByte st) s := by
  show Host.Outcome.next (carryOut 0x30 _ _ s) = _
  rw [carryOut_refuses h (orderSwitchPlan_refused g hr)]

/-- Settles O35: the refusals in their order; else the swap, the forced switch or the pending one, by whether every
involved patch is idle and by the grace. -/
theorem switchPlanSwapsForcesOrWaits : Obligations.SwitchPlanSwapsForcesOrWaits := by
  intro g s h i u c involved isProtected isOverridden allIdle
  have hswitch : u.live.switch = s.live.switch := catchUp_switch s
  have hpending : s.live.switch.state = .none → switchPending u.live = false := fun hs =>
    switchPending_false (by rw [hswitch, hs])
  have hprotected : ¬ isProtected → anyProtected c (affected c involved) = false := fun hp =>
    Bool.eq_false_iff.2 (mt anyProtected_affected_iff.1 hp)
  have hoverridden : ¬ isOverridden → involved.any (overridden u.live) = false := fun ho =>
    Bool.eq_false_iff.2 (mt any_overridden_iff.1 ho)
  have hstarts : s.live.switch.state = .none → ¬ isProtected → ¬ isOverridden →
      firstRefusal [(switchPending u.live, .pending), (anyProtected c (affected c involved), .protectedPort),
        (involved.any (overridden u.live), .override)] = none := fun hs hp ho => by
    rw [hpending hs, hprotected hp, hoverridden ho]
    rfl
  have hended : ∀ outcome k, (closeEvent c (swap c involved outcome k)).switch.state = .none := fun outcome k => by
    rw [closeEvent_swap, recordRaised_switch, swap_switch]
  refine ⟨fun hs => ?pending, fun hs hp => ?protectedPort, fun hs hp ho => ?override, fun hs hp ho hi => ?swaps,
    fun hs hp ho hi hg => ?forces, fun hs hp ho hi hg => ?waits⟩
  case pending =>
    refine refuses_of_firstRefusal (st := .pending) h ?_
    rw [switchPending_iff.2 (by rw [catchUp_switch, hs])]
    rfl
  case protectedPort =>
    refine refuses_of_firstRefusal (st := .protectedPort) h ?_
    rw [hpending hs, anyProtected_affected_iff.2 hp]
    rfl
  case override =>
    refine refuses_of_firstRefusal (st := .override) h ?_
    rw [hpending hs, hprotected hp, any_overridden_iff.2 ho]
    rfl
  case swaps =>
    exact ⟨_, carriesOut_of_ended h (hstarts hs hp ho) (startSwitch_idle hi) (hended _ _), swapped_unforced c u.live .done⟩
  case forces =>
    subst hg
    exact ⟨_, carriesOut_of_ended h (hstarts hs hp ho) (startSwitch_forced hi) (hended _ _), swapped_forced c u.live⟩
  case waits =>
    simpa only [i, u, c, involved] using setPending_answers h (hstarts hs hp ho) hi hg

end Sys2Proof.SwitchPlans

/-! SUPPORT. Selection: what the lowest and the lowest few keys of a list of ports are (R42, R45, R48). -/

namespace Sys2Proof.Selection

open Sys2Proof.Machine Sys2Proof.Safety Sys2Proof.Claims Sys2Proof.Keying Sys2Proof.Rounds

/-! ### One place -/

/-- No two ports have the same arbitration key (R42). -/
theorem arbKey_injective (c : Settings) (l : Live) (q : Patch) : Function.Injective (arbKey c l q) := by
  intro p r h
  have hp := p.isLt
  have hr := r.isLt
  simp only [arbKey] at h
  exact Fin.ext (by omega)

theorem isSelected_select (c : Settings) (l : Live) (q : Patch) (ps : List Port) :
    IsSelected c l q ps (select (arbKey c l q) ps).toList := by
  cases hs : select (arbKey c l q) ps with
  | none => exact .inl ⟨select_none_iff.1 hs, rfl⟩
  | some p => exact .inr ⟨p, mem_of_select hs, rfl, fun _ => select_le hs⟩

theorem isSelected_singleton_iff {c : Settings} {l : Live} {q : Patch} {ps : List Port} {h : Port} :
    IsSelected c l q ps [h] ↔ select (arbKey c l q) ps = some h := by
  constructor
  · rintro (⟨-, hnil⟩ | ⟨p, hp, hfloor, hlow⟩)
    · exact absurd hnil (List.cons_ne_nil _ _)
    · obtain rfl := List.singleton_inj.1 hfloor
      obtain ⟨b, hb⟩ := Option.isSome_iff_exists.1 (select_some_of_mem (key := arbKey c l q) hp)
      rw [hb, arbKey_injective c l q ((select_le hb hp).antisymm (hlow b (mem_of_select hb)))]
  · intro hs
    have hselected := isSelected_select c l q ps
    rwa [hs] at hselected

/-! ### Several places -/

section

variable {key : Port → Nat} {n : Nat} {ps : List Port}

theorem selectMany_succ {p : Port} (h : select key ps = some p) :
    selectMany key (n + 1) ps = p :: selectMany key n (dropPort p ps) := by
  simp only [selectMany, h]

theorem selectMany_nodup (key : Port → Nat) (n : Nat) (ps : List Port) : (selectMany key n ps).Nodup := by
  induction n generalizing ps with
  | zero => exact List.nodup_nil
  | succ n ih =>
    unfold selectMany
    split
    · exact List.nodup_nil
    · exact List.nodup_cons.2 ⟨fun h => ((mem_dropPort _ _ _).1 (mem_of_mem_selectMany h)).2 rfl, ih _⟩

/-- While a port is passed over all places are taken, each by a key that is no higher. -/
theorem selectMany_passes_over {p : Port} (hp : p ∈ ps) (hout : p ∉ selectMany key n ps) :
    (selectMany key n ps).length = n ∧ ∀ r ∈ selectMany key n ps, key r ≤ key p := by
  induction n generalizing ps with
  | zero => exact ⟨rfl, fun r hr => absurd hr List.not_mem_nil⟩
  | succ n ih =>
    obtain ⟨b, hb⟩ := Option.isSome_iff_exists.1 (select_some_of_mem (key := key) hp)
    rw [selectMany_succ hb, List.mem_cons, not_or] at hout
    obtain ⟨hlength, hlow⟩ := ih ((mem_dropPort b p ps).2 ⟨hp, hout.1⟩) hout.2
    rw [selectMany_succ hb]
    refine ⟨by rw [List.length_cons, hlength], fun r hr => ?_⟩
    rcases List.mem_cons.1 hr with rfl | hr
    · exact select_le hb hp
    · exact hlow r hr

end

/-! ### Sets of ports -/

theorem portSet_ascending (ps : List Port) : (portSet ps).Pairwise (fun a b => a.val < b.val) :=
  List.Pairwise.filter _ (by decide)

theorem length_portSet_of_nodup {ps : List Port} (h : ps.Nodup) : (portSet ps).length = ps.length :=
  ((List.perm_ext_iff_of_nodup (portSet_nodup ps) h).2 fun _ => mem_portSet _ _).length_eq

/-- The claimants with one more, in the words of the statements. -/
theorem addPort_eq (p : Port) (ps : List Port) : addPort p ps = allPorts.filter (fun r => decide (r = p ∨ r ∈ ps)) := by
  simp only [addPort, portSet, List.contains_eq_mem, List.mem_cons]

/-! ### The four lowest keys -/

theorem mem_fourLowest {c : Settings} {l : Live} {q : Patch} {p : Port} :
    p ∈ fourLowest c l q ↔ p ∈ selectMany (arbKey c l q) 4 (candidates c l q) := mem_portSet ..

theorem mem_candidates_of_fourLowest {c : Settings} {l : Live} {q : Patch} {p : Port} (h : p ∈ fourLowest c l q) :
    p ∈ candidates c l q := mem_of_mem_selectMany (mem_fourLowest.1 h)

/-- A candidate that is not among the four lowest waits for one of four places, each taken by a lower key (R48). -/
theorem fourLowest_passes_over {c : Settings} {l : Live} {q : Patch} {p : Port} (hp : p ∈ candidates c l q)
    (hout : p ∉ fourLowest c l q) :
    (fourLowest c l q).length = 4 ∧ ∀ r ∈ fourLowest c l q, arbKey c l q r < arbKey c l q p := by
  obtain ⟨hlength, hlow⟩ := selectMany_passes_over hp (mt mem_fourLowest.2 hout)
  refine ⟨by rw [fourLowest, length_portSet_of_nodup (selectMany_nodup ..), hlength], fun r hr => ?_⟩
  refine lt_of_le_of_ne (hlow r (mem_fourLowest.1 hr)) fun he => hout ?_
  rwa [← arbKey_injective c l q he]

/-! ### Who may be selected, and when -/

theorem floorHeld_of_granting {l : Live} {q : Patch} (h : Granting l q) : floorHeld l q = false := by
  simp [floorHeld, underAlert, h.1, h.2]

theorem candidates_unrestricted {c : Settings} {l : Live} {q : Patch} (h : (ctxOf l q).restriction = none) :
    candidates c l q = claimantsOf l q := by
  rw [candidates, h, List.filter_eq_self]
  exact fun _ _ => rfl

theorem candidates_restricted {c : Settings} {l : Live} {q : Patch} {mp : Port}
    (h : (ctxOf l q).restriction = some mp) :
    candidates c l q = (claimantsOf l q).filter (eligible c l q (some mp)) := by
  rw [candidates, h]

theorem eligible_mayday_iff {c : Settings} {l : Live} {q : Patch} {mp p : Port} :
    eligible c l q (some mp) p = true ↔ AllowedUnder c l q mp p := by
  simp only [eligible, Bool.or_eq_true, decide_eq_true_eq, or_assoc]

end Sys2Proof.Selection

/-! SUPPORT. The floors that restores give (R52, R57, R104, R105). -/

namespace Sys2Proof.RestoredFloors

open Sys2Proof.Machine Sys2Proof.Safety Sys2Proof.Claims Sys2Proof.Keying Sys2Proof.Follow Sys2Proof.Rounds
  Sys2Proof.Selection

section

variable {c : Settings} {l : Live} {q : Patch}

/-! ### Under restriction NONE -/

/-- The saved ports that still claim. -/
def kept (l : Live) (q : Patch) (saved : List Port) : List Port := saved.filter (fun p => (claimantsOf l q).contains p)

/-- The claimants that were not saved. -/
def waiting (l : Live) (q : Patch) (saved : List Port) : List Port :=
  (claimantsOf l q).filter (fun p => !(kept l q saved).contains p)

/-- The claimants that fill the places which the saved talkers leave free. -/
def filling (c : Settings) (l : Live) (q : Patch) (saved : List Port) : List Port :=
  selectMany (arbKey c l q) (4 - (kept l q saved).length) (waiting l q saved)

theorem mem_kept {saved : List Port} {p : Port} : p ∈ kept l q saved ↔ p ∈ saved ∧ p ∈ claimantsOf l q := by
  rw [kept, List.mem_filter, List.contains_iff_mem]

theorem mem_waiting {saved : List Port} {p : Port} : p ∈ waiting l q saved ↔ p ∈ claimantsOf l q ∧ p ∉ kept l q saved := by
  simp [waiting]

theorem rebuiltFloor_single_of_claims {h : Port} {rest : List Port} (hclaims : h ∈ claimantsOf l q) :
    rebuiltFloor c l q .single (h :: rest) = [h] := by
  simp [rebuiltFloor, hclaims]

theorem rebuiltFloor_single_of_none {saved : List Port} (hnone : ∀ h ∈ saved, h ∉ claimantsOf l q) :
    rebuiltFloor c l q .single saved = (select (arbKey c l q) (claimantsOf l q)).toList := by
  have hkept : saved.filter (fun p => (claimantsOf l q).contains p) = [] :=
    List.filter_eq_nil_iff.2 fun h hh => mt List.contains_iff_mem.1 (hnone h hh)
  simp only [rebuiltFloor, hkept]

theorem mem_rebuiltFloor_mix {saved : List Port} {p : Port} :
    p ∈ rebuiltFloor c l q .mix saved ↔ p ∈ kept l q saved ∨ p ∈ filling c l q saved :=
  (mem_portSet _ _).trans List.mem_append

/-- A claimant left waiting means that every place not kept was filled, with a lower key (R104). -/
theorem filling_passes_over {saved : List Port} {p : Port} (hp : p ∈ claimantsOf l q)
    (hout : p ∉ rebuiltFloor c l q .mix saved) :
    (filling c l q saved).length = 4 - (kept l q saved).length ∧
      ∀ r ∈ filling c l q saved, arbKey c l q r < arbKey c l q p := by
  obtain ⟨hnew, hunfilled⟩ := not_or.1 (mt mem_rebuiltFloor_mix.2 hout)
  obtain ⟨hlength, hlow⟩ := selectMany_passes_over (mem_waiting.2 ⟨hp, hnew⟩) hunfilled
  refine ⟨hlength, fun r hr => lt_of_le_of_ne (hlow r hr) fun he => hunfilled ?_⟩
  rwa [← arbKey_injective c l q he]

/-- Kept and filled places are of different ports. -/
theorem length_rebuiltFloor_mix {saved : List Port} (hsaved : saved.Nodup) :
    (rebuiltFloor c l q .mix saved).length = (kept l q saved).length + (filling c l q saved).length := by
  have hdistinct : (kept l q saved ++ filling c l q saved).Nodup :=
    List.Nodup.append (hsaved.filter _) (selectMany_nodup ..) fun p hkept hfill =>
      (mem_waiting.1 (mem_of_mem_selectMany hfill)).2 hkept
  exact (length_portSet_of_nodup hdistinct).trans List.length_append

theorem length_kept_le (saved : List Port) : (kept l q saved).length ≤ saved.length := List.length_filter_le _ _

theorem rebuiltFloor_mix_as_stated {saved : List Port} (hsaved : saved.length ≤ 4) :
    let floor := rebuiltFloor c l q .mix saved
    floor.length ≤ 4 ∧ (∀ h ∈ saved, h ∈ claimantsOf l q → h ∈ floor) ∧ (∀ p ∈ floor, p ∈ claimantsOf l q) ∧
    (∀ p ∈ claimantsOf l q, p ∉ floor → ∀ r ∈ floor, r ∉ saved → arbKey c l q r < arbKey c l q p) ∧
    (saved.Nodup → ∀ p ∈ claimantsOf l q, p ∉ floor → floor.length = 4) := by
  refine ⟨?fits, fun h hh hclaims => mem_rebuiltFloor_mix.2 (.inl (mem_kept.2 ⟨hh, hclaims⟩)),
    fun p => GoverningOverrides.mem_of_mem_rebuiltFloor, fun p hp hout r hr hnew => ?lower, fun hdistinct p hp hout => ?full⟩
  case fits =>
    have hfits := LiveRuns.floorFits_rebuiltFloor (c := c) (l := l) (q := q) (mode := .mix) (decide_eq_true hsaved)
    exact of_decide_eq_true hfits
  case lower =>
    refine (filling_passes_over hp hout).2 r ((mem_rebuiltFloor_mix.1 hr).resolve_left fun hkept => ?_)
    exact hnew (mem_kept.1 hkept).1
  case full =>
    have hlength := (filling_passes_over hp hout).1
    have hkept := (length_kept_le (l := l) (q := q) saved).trans hsaved
    rw [length_rebuiltFloor_mix hdistinct]
    omega

/-! ### Under restriction MAYDAY -/

theorem maydayFloor_of_claims {mp : Port} {floor : List Port} (h : mp ∈ claimantsOf l q) :
    maydayFloor c l q mp floor = [mp] := if_pos (List.contains_iff_mem.2 h)

theorem restoredMaydayFloor_of_claims {mp : Port} {saved : List Port} (h : mp ∈ claimantsOf l q) :
    restoredMaydayFloor c l q mp saved = [mp] := if_pos (List.contains_iff_mem.2 h)

/-- Selection among those of the floor that may stay, or where there are none among the eligible claimants (R52). -/
theorem maydayFloor_of_not_claims {mp : Port} {floor : List Port} (h : mp ∉ claimantsOf l q) :
    maydayFloor c l q mp floor = (select (arbKey c l q)
      (if floor.filter (keepsUnder c l q mp) = [] then (claimantsOf l q).filter (eligible c l q (some mp))
        else floor.filter (keepsUnder c l q mp))).toList := by
  rw [maydayFloor, if_neg (mt List.contains_iff_mem.1 h)]
  cases hs : select (arbKey c l q) (floor.filter (keepsUnder c l q mp)) with
  | none => rw [if_pos (select_none_iff.1 hs), eligibleFloor]
  | some p =>
    rw [if_neg fun hnil => List.not_mem_nil (hnil ▸ mem_of_select hs), hs]
    rfl

theorem restoredMaydayFloor_of_keeps {mp h : Port} {saved : List Port} (hmp : mp ∉ claimantsOf l q)
    (hs : select (arbKey c l q) saved = some h) (hkeeps : keepsUnder c l q mp h = true) :
    restoredMaydayFloor c l q mp saved = [h] := by
  rw [restoredMaydayFloor, if_neg (mt List.contains_iff_mem.1 hmp), hs]
  exact if_pos hkeeps

theorem restoredMaydayFloor_of_not_keeps {mp : Port} {saved : List Port} (hmp : mp ∉ claimantsOf l q)
    (hs : ∀ h, select (arbKey c l q) saved = some h → keepsUnder c l q mp h = false) :
    restoredMaydayFloor c l q mp saved = eligibleFloor c l q mp := by
  rw [restoredMaydayFloor, if_neg (mt List.contains_iff_mem.1 hmp)]
  cases h : select (arbKey c l q) saved with
  | none => rfl
  | some p =>
    dsimp only
    rw [hs p h, if_neg (by decide)]

theorem keepsUnder_iff {mp p : Port} :
    keepsUnder c l q mp p = true ↔ p ∈ claimantsOf l q ∧ eligible c l q (some mp) p = true := by
  rw [keepsUnder, Bool.and_eq_true, List.contains_iff_mem]

theorem keepsUnder_false_of {mp p : Port} (h : p ∉ claimantsOf l q ∨ eligible c l q (some mp) p = false) :
    keepsUnder c l q mp p = false := by
  rw [Bool.eq_false_iff, ne_eq, keepsUnder_iff]
  rintro ⟨hclaims, heligible⟩
  rcases h with h | h
  · exact h hclaims
  · rw [heligible] at h
    exact absurd h (by decide)

/-! ### After an aborted switch -/

theorem abortedFloor_free (hg : Granting l q) (hm : (ctxOf l q).mode = .single) (hfree : (ctxOf l q).floor = []) :
    abortedFloor c l q = selectedFloor c l q := by
  simp [abortedFloor, floorHeld_of_granting hg, hm, hfree]

/-- The waiting claimants of strictly lower rank than a holder. -/
def outranking (c : Settings) (l : Live) (q : Patch) (h : Port) : List Port :=
  (claimantsOf l q).filter (fun p => rankIn c l q p < rankIn c l q h)

theorem abortedFloor_taken {h : Port} (hg : Granting l q) (hm : (ctxOf l q).mode = .single)
    (hr : (ctxOf l q).restriction = none) (hfloor : (ctxOf l q).floor = [h]) :
    abortedFloor c l q = ((select (arbKey c l q) (outranking c l q h)).elim [h] fun p => [p]) := by
  simp only [abortedFloor, floorHeld_of_granting hg, hm, hfloor, candidates_unrestricted hr,
    preemptible_unrestricted hr, Bool.true_and, Bool.false_eq_true, if_false, outranking]
  cases select (arbKey c l q) ((claimantsOf l q).filter (fun p => rankIn c l q p < rankIn c l q h)) <;> rfl

theorem abortedFloor_preempted {h : Port} (hg : Granting l q) (hm : (ctxOf l q).mode = .single)
    (hr : (ctxOf l q).restriction = none) (hfloor : (ctxOf l q).floor = [h]) (hsome : outranking c l q h ≠ []) :
    IsSelected c l q (outranking c l q h) (abortedFloor c l q) := by
  rw [abortedFloor_taken hg hm hr hfloor]
  cases hs : select (arbKey c l q) (outranking c l q h) with
  | none => exact absurd (select_none_iff.1 hs) hsome
  | some p => exact isSelected_singleton_iff.2 hs

end

/-- Settles O49: the restored floors by restriction, mode, and who of the saved floor still claims. -/
theorem restoredFloorsKeepTheirHolders : Obligations.RestoredFloorsKeepTheirHolders := by
  refine ⟨fun c l q h rest => rebuiltFloor_single_of_claims, fun c l q saved hnone => ?_,
    fun c l q saved => rebuiltFloor_mix_as_stated, fun c l q mp floor => maydayFloor_of_claims,
    fun c l q mp floor hmp => ?_, fun c l q mp saved => restoredMaydayFloor_of_claims,
    fun c l q mp saved hmp => ⟨fun h hs hclaims hallowed => ?_, fun hnone => ?_⟩,
    fun c l q hg hm hr => ⟨fun hfree => ?_, fun h hfloor => ⟨fun hnone => ?_, abortedFloor_preempted hg hm hr hfloor⟩⟩⟩
  · rw [rebuiltFloor_single_of_none hnone]
    exact isSelected_select ..
  · rw [maydayFloor_of_not_claims hmp]
    exact isSelected_select ..
  · exact restoredMaydayFloor_of_keeps hmp (isSelected_singleton_iff.1 hs) (keepsUnder_iff.2 ⟨hclaims, hallowed⟩)
  · rw [restoredMaydayFloor_of_not_keeps hmp fun h hs => keepsUnder_false_of (hnone h (isSelected_singleton_iff.2 hs))]
    exact isSelected_select ..
  · rw [abortedFloor_free hg hm hfree, selectedFloor, candidates_unrestricted hr]
    exact isSelected_select ..
  · have hlowest : outranking c l q h = [] := hnone
    rw [abortedFloor_taken hg hm hr hfloor, hlowest]
    rfl

end Sys2Proof.RestoredFloors

/-! SUPPORT. What the hand-on of a floor change keeps of a floor, and what claims and releases come to (R45 to R50). -/

namespace Sys2Proof.FloorChanges

open Sys2Proof.Machine Sys2Proof.Safety Sys2Proof.Claims Sys2Proof.ResetOrders Sys2Proof.Deletions Sys2Proof.Signalling
  Sys2Proof.Keying Sys2Proof.LiveRuns Sys2Proof.ClaimSteps Sys2Proof.Follow Sys2Proof.Rounds Sys2Proof.FollowEvents
  Sys2Proof.SwapStart Sys2Proof.SwapRounds Sys2Proof.Selection

variable {c : Settings} {l : Live} {p : Port} {q : Patch}

/-! ### A patch whose selection a hand-on does not make again -/

/-- The selection of a patch may be made again: it is a MIX patch that grants (R48). -/
abbrev Selects (l : Live) (q : Patch) : Prop := (ctxOf l q).mode = .mix ∧ Granting l q

theorem ctxOf_placeElsewhere {r : Patch} (hr : r ≠ q) (ctx : Context) : ctxOf (placeFloor c r ctx l) q = ctxOf l q := by
  rw [ctxOf_placeFloor, if_neg (Ne.symm hr)]

theorem selects_congr {l' : Live} (h : ctxOf l' q = ctxOf l q)
    (hbeyond : l'.beyondFloors = l.beyondFloors) : Selects l' q ↔ Selects l q := by
  rw [Selects, Granting, h, beyondFloors_freezing hbeyond]

/-- Where its selection is not made again, a hand-on keeps the context of a patch, and whatever a round of keyings and
floors put in place elsewhere keep while it stays. -/
theorem settleKeys_keeps_unselected {P : Live → Prop} (hsel : ¬ Selects l q)
    (hsync : ∀ m, ctxOf m q = ctxOf l q → P m → P (sync c m))
    (hplace : ∀ m r ctx, r ≠ q → P m → P (placeFloor c r ctx m)) (h : P l) :
    ctxOf (settleKeys c l) q = ctxOf l q ∧ P (settleKeys c l) := by
  have hkept := handOn_keeps (P := fun m => m.beyondFloors = l.beyondFloors ∧ ctxOf m q = ctxOf l q ∧ P m) (c := c)
    (fun m ⟨hbeyond, hctx, hm⟩ =>
      ⟨(sync_beyondFloors c m).trans hbeyond, ((sync_view c m).ctx q).trans hctx, hsync m hctx hm⟩)
    (fun m r ⟨hbeyond, hctx, hm⟩ hagain => by
      have hr : r ≠ q := fun he => hsel ((selects_congr hctx hbeyond).1 (he ▸ ⟨hagain.1, hagain.2.1⟩))
      exact ⟨(placeFloor_beyondFloors ..).trans ((sync_beyondFloors c m).trans hbeyond),
        (ctxOf_placeElsewhere hr _).trans (((sync_view c m).ctx q).trans hctx),
        hplace _ r _ hr (hsync m hctx hm)⟩) 18 ⟨rfl, rfl, h⟩
  exact hkept.2

/-- The state in which a floor has been put in place and the machines have not followed yet. -/
def placed (c : Settings) (q : Patch) (floor : List Port) (l : Live) : Live :=
  placeFloor c q { ctxOf l q with floor := floor } l

theorem installFloor_eq (floor : List Port) : installFloor c q floor l = settleKeys c (placed c q floor l) := rfl

theorem placed_beyondFloors (floor : List Port) : (placed c q floor l).beyondFloors = l.beyondFloors :=
  placeFloor_beyondFloors ..

theorem ctxOf_placed (floor : List Port) : ctxOf (placed c q floor l) q = { ctxOf l q with floor := floor } := by
  rw [placed, ctxOf_placeFloor, if_pos rfl]

theorem selects_placed (floor : List Port) : Selects (placed c q floor l) q ↔ Selects l q := by
  rw [Selects, Granting, ctxOf_placed, beyondFloors_freezing (placed_beyondFloors floor)]

/-- A floor installed where no selection is made again is the floor of the patch from then on. -/
theorem floor_installFloor_unselected (hsel : ¬ Selects l q) (floor : List Port) :
    (ctxOf (installFloor c q floor l) q).floor = floor := by
  have hkept := settleKeys_keeps_unselected (c := c) (P := fun _ => True) (mt (selects_placed (c := c) floor).1 hsel)
    (fun _ _ _ => trivial) (fun _ _ _ _ _ => trivial) trivial
  rw [installFloor_eq, hkept.1, ctxOf_placed]

/-! ### A port that holds the floor does not read the ring -/

/-- A round of keyings does not make a port read the ring of a patch whose floor it holds (R50, R67). -/
theorem reads_sync_of_onFloor (hs : (ctxOf l q).source = .receive) (hp : p ∈ (ctxOf l q).floor)
    (h : reads l p q = false) : reads (sync c l) p q = false := by
  rcases state_cases (look l.tx p) with hd | hf | hk
  · cases hkeys : keysOn c l p with
    | none =>
      rw [reads_of_look (l := l) (by rw [look_sync_tx, syncedTx_dormant hd, hkeys, Option.elim_none]), h]
    | some r =>
      have hentitled := entitled_of_entitledRing (keysOn_iff.1 hkeys).1
      have hr : r ≠ q := fun he => by
        subst he
        simp [entitled, hs, onFloor, hp] at hentitled
      rw [reads, look_sync_tx, syncedTx_dormant hd, hkeys, Option.elim_some]
      simp [keyedTx, hr]
  · rw [reads_of_look (l := l) (by rw [look_sync_tx, syncedTx_fault hf]), h]
  · cases hreader : (look l.tx p).reader with
    | none => rw [reads_of_look (l := l) (by rw [look_sync_tx, syncedTx_keyed hk, hreader, Option.elim_none]), h]
    | some r =>
      obtain ⟨z, hz, hring⟩ := followed_reader c l p r (look l.tx p)
      rw [reads, hk, hreader] at h
      rw [reads, look_sync_tx, syncedTx_keyed hk, hreader, Option.elim_some, keyed_followed, hk, hz]
      simpa [hring] using h

theorem reads_placeFloor (r : Patch) (ctx : Context) (h : reads l p q = false) :
    reads (placeFloor c r ctx l) p q = false := by
  by_cases he : EntersReading l r ctx p
  · exact reads_dormant (look_placeFloor_entering c he).1 q
  · rw [reads_of_look (look_placeFloor_other c he).1, h]

theorem reads_placed {floor : List Port} (hp : p ∈ floor) (hnew : p ∉ (ctxOf l q).floor) :
    reads (placed c q floor l) p q = false := by
  by_cases he : reads l p q = true
  · exact reads_dormant (look_placeFloor_entering c ⟨hp, hnew, he⟩).1 q
  · exact reads_placeFloor q _ (Bool.not_eq_true _ ▸ he)

theorem reads_settleKeys_of_onFloor (hsel : ¬ Selects l q) (hs : (ctxOf l q).source = .receive)
    (hp : p ∈ (ctxOf l q).floor) (h : reads l p q = false) : reads (settleKeys c l) p q = false :=
  (settleKeys_keeps_unselected (P := fun m => reads m p q = false) hsel
    (fun _ hm => reads_sync_of_onFloor (hm ▸ hs) (hm ▸ hp)) (fun _ r ctx _ => reads_placeFloor r ctx) h).2

/-- A port that a floor is granted to does not read the ring, at the grant and through the hand-on (R50). -/
theorem reads_installFloor (hsel : ¬ Selects l q) (hs : (ctxOf l q).source = .receive) {floor : List Port}
    (hp : p ∈ floor) (hnew : p ∉ (ctxOf l q).floor) : reads (installFloor c q floor l) p q = false := by
  have hctx := ctxOf_placed (c := c) (l := l) (q := q) floor
  rw [installFloor_eq]
  exact reads_settleKeys_of_onFloor (mt (selects_placed floor).1 hsel) (by rw [hctx]; exact hs)
    (by rw [hctx]; exact hp) (reads_placed hp hnew)

/-! ### A MIX patch with its four lowest claimants on the floor -/

/-- The floor of a patch under RECEIVE is its four lowest candidates, all of them members (R48). -/
structure FourHeld (c : Settings) (q : Patch) (l : Live) : Prop where
  source : (ctxOf l q).source = .receive
  members : ∀ p ∈ (ctxOf l q).floor, (memberIn c l q p).isSome = true
  four : fourLowest c l q = (ctxOf l q).floor

section

variable (hplan : PlanLaw c) (hset : SettingsLaw c)
include hplan hset

theorem FourHeld.kept (h : FourHeld c q l) (hp : p ∈ (ctxOf l q).floor) : ¬ Released c l p := by
  intro hrel
  obtain ⟨-, hradio, hkeys⟩ := keysOn_of_released hplan hset (h.members p hp) hrel
  exact not_mem_floor_of_keysOn h.source hradio hkeys hp

theorem FourHeld.fourLowest_sync (h : FourHeld c q l) : fourLowest c (sync c l) q = (ctxOf l q).floor := by
  rw [Rounds.fourLowest_sync fun p hp => h.kept hplan hset (h.four ▸ hp), h.four]

theorem FourHeld.sync (h : FourHeld c q l) : FourHeld c q (sync c l) := by
  have hview := sync_view c l
  refine ⟨?_, fun p hp => ?_, ?_⟩
  · rw [hview.ctx]
    exact h.source
  · rw [hview.ctx] at hp
    rw [memberIn_congr (hview.records q)]
    exact h.members p hp
  · rw [hview.ctx]
    exact h.fourLowest_sync hplan hset

theorem FourHeld.not_again (h : FourHeld c q l) : ¬ SelectsAgain c l q := fun hagain =>
  hagain.2.2.2 (h.fourLowest_sync hplan hset)

omit hplan hset in
theorem FourHeld.placeElsewhere (h : FourHeld c q l) {r : Patch} (hr : r ≠ q) (ctx : Context) :
    FourHeld c q (placeFloor c r ctx l) := by
  have hctx := ctxOf_placeElsewhere (c := c) (l := l) hr ctx
  have hrecord := activeRecord_congr (beyondFloors_fields (placeFloor_beyondFloors c r ctx l)).1 c q
  refine ⟨?_, fun p hp => ?_, ?_⟩
  · rw [hctx]
    exact h.source
  · rw [hctx] at hp
    rw [memberIn_congr hrecord]
    exact h.members p hp
  · rw [hctx, fourLowest_congr hrecord (emg_placeFloor c r ctx l) (claimantsOf_placeFloor ..) (by rw [hctx])]
    exact h.four

/-- A hand-on, however many rounds other patches need, keeps such a floor. -/
theorem FourHeld.settleKeys (h : FourHeld c q l) : ctxOf (settleKeys c l) q = ctxOf l q :=
  (handOn_keeps (P := fun m => ctxOf m q = ctxOf l q ∧ FourHeld c q m)
    (fun m ⟨hctx, hm⟩ => ⟨((sync_view c m).ctx q).trans hctx, hm.sync hplan hset⟩)
    (fun m r ⟨hctx, hm⟩ hagain => by
      have hr : r ≠ q := fun he => hm.not_again hplan hset (he ▸ hagain)
      exact ⟨(ctxOf_placeElsewhere hr _).trans (((sync_view c m).ctx q).trans hctx),
        FourHeld.placeElsewhere (hm.sync hplan hset) hr _⟩) 18 ⟨rfl, h⟩).1

omit hplan hset in
theorem fourHeld_placed (hs : (ctxOf l q).source = .receive)
    (hmembers : ∀ p ∈ claimantsOf l q, (memberIn c l q p).isSome = true) :
    FourHeld c q (placed c q (fourLowest c l q) l) := by
  have hctx := ctxOf_placed (c := c) (l := l) (q := q) (fourLowest c l q)
  have hrecord := activeRecord_congr
    (beyondFloors_fields (placed_beyondFloors (c := c) (l := l) (q := q) (fourLowest c l q))).1 c q
  refine ⟨by rw [hctx]; exact hs, fun p hp => ?_, ?_⟩
  · rw [hctx] at hp
    rw [memberIn_congr hrecord]
    exact hmembers p (mem_of_mem_fourLowest hp)
  · rw [hctx]
    exact fourLowest_congr hrecord (emg_placeFloor c q _ l) (claimantsOf_placeFloor c q q _ l) (by rw [hctx])

/-- The four lowest claimants, installed as the floor of a MIX patch of which they are members, stay its floor. -/
theorem floor_installFloor_four (hs : (ctxOf l q).source = .receive)
    (hmembers : ∀ p ∈ claimantsOf l q, (memberIn c l q p).isSome = true) :
    (ctxOf (installFloor c q (fourLowest c l q) l) q).floor = fourLowest c l q := by
  rw [installFloor_eq, (fourHeld_placed hs hmembers).settleKeys hplan hset, ctxOf_placed]

end

/-! ### Claims and releases as floors installed -/

/-- The state in which a port has entered the claimants of a patch. -/
def entered (p : Port) (q : Patch) (l : Live) : Live := l.setClaimants q (addPort p (claimantsOf l q))

/-- The state in which a port has left the claimants of a patch. -/
def withdrawn (p : Port) (q : Patch) (l : Live) : Live := l.setClaimants q (dropPort p (claimantsOf l q))

theorem ctxOf_entered : ctxOf (entered p q l) q = ctxOf l q := ctxOf_setClaimants ..

theorem ctxOf_withdrawn : ctxOf (withdrawn p q l) q = ctxOf l q := ctxOf_setClaimants ..

theorem claimantsOf_entered : claimantsOf (entered p q l) q = addPort p (claimantsOf l q) := by
  rw [entered, claimantsOf_setClaimants, if_pos rfl]

theorem claimantsOf_withdrawn : claimantsOf (withdrawn p q l) q = dropPort p (claimantsOf l q) := by
  rw [withdrawn, claimantsOf_setClaimants, if_pos rfl]

theorem granting_setClaimants (ps : List Port) : Granting (l.setClaimants q ps) q ↔ Granting l q := by
  rw [Granting, ctxOf_setClaimants, beyondFloors_freezing (Live.setClaimants_beyondFloors ..)]

theorem granting_entered : Granting (entered p q l) q ↔ Granting l q := granting_setClaimants _

theorem granting_withdrawn : Granting (withdrawn p q l) q ↔ Granting l q := granting_setClaimants _

theorem claim_eq (h : TalksIn c l p q) :
    claim c p l = installFloor c q (claimedFloor c (entered p q l) q (ctxOf l q).floor p) (entered p q l) := by
  simp only [claim, h.1, h.2, if_true, ctxOf_setClaimants, entered]

/-- A release from a floor, or from a MIX patch, is a floor refilled. -/
theorem releaseIn_installs (hp : p ∈ claimantsOf l q) (h : p ∈ (ctxOf l q).floor ∨ (ctxOf l q).mode = .mix) :
    releaseIn c p l q =
      installFloor c q (refilledFloor c (withdrawn p q l) q (dropPort p (ctxOf l q).floor)) (withdrawn p q l) := by
  rw [releaseIn, if_pos (List.contains_iff_mem.2 hp)]
  refine if_pos ?_
  rw [onFloor, ctxOf_setClaimants, Bool.or_eq_true, decide_eq_true_eq]
  exact h.imp_left List.contains_iff_mem.2

/-- A release of a claimant that waits in a SINGLE patch is no more than its withdrawal. -/
theorem releaseIn_waiting (hp : p ∈ claimantsOf l q) (hm : (ctxOf l q).mode = .single) (hout : p ∉ (ctxOf l q).floor) :
    releaseIn c p l q = withdrawn p q l := by
  rw [releaseIn, if_pos (List.contains_iff_mem.2 hp)]
  refine if_neg ?_
  rw [onFloor, ctxOf_setClaimants, Bool.or_eq_true, decide_eq_true_eq, hm]
  rintro (hon | hmix)
  · exact hout (List.contains_iff_mem.1 hon)
  · exact absurd hmix (by decide)

theorem not_mem_claimants_releaseIn_self (c : Settings) (l : Live) (p : Port) (q : Patch) :
    p ∉ claimantsOf (releaseIn c p l q) q := by
  rcases releaseIn_cases c p l q with ⟨hout, hsame⟩ | ⟨-, habsent, -⟩
  · rwa [hsame]
  · exact habsent.1

theorem not_mem_claimants_releaseIn (r : Patch) (h : p ∉ claimantsOf l q) : p ∉ claimantsOf (releaseIn c p l r) q := by
  rcases releaseIn_cases c p l r with ⟨-, hsame⟩ | ⟨-, habsent, hrun⟩
  · rwa [hsame]
  · by_cases hr : q = r
    · exact hr ▸ habsent.1
    · rw [hrun.tuned.claims q, claimantsOf_setClaimants, if_neg hr]
      exact fun hp => h (List.mem_filter.1 hp).1

theorem not_mem_claimants_foldl_releaseIn (qs : List Patch) (h : q ∈ qs ∨ p ∉ claimantsOf l q) :
    p ∉ claimantsOf (qs.foldl (releaseIn c p) l) q := by
  induction qs generalizing l with
  | nil => exact h.resolve_left List.not_mem_nil
  | cons r qs ih =>
    refine ih ?_
    rcases h with hq | hout
    · rcases List.mem_cons.1 hq with rfl | hq
      · exact .inr (not_mem_claimants_releaseIn_self c l p q)
      · exact .inl hq
    · exact .inr (not_mem_claimants_releaseIn r hout)

/-- A port that releases claims nowhere any more (R41). -/
theorem not_mem_claimants_release (c : Settings) (l : Live) (p : Port) (q : Patch) : p ∉ claimantsOf (release c p l) q :=
  not_mem_claimants_foldl_releaseIn allPatches (.inl (mem_allPatches q))

/-- A port that claims in one patch alone is released there alone. -/
theorem release_once (hp : p ∈ claimantsOf l q) (honce : ∀ r, p ∈ claimantsOf l r → r = q) :
    release c p l = releaseIn c p l q := by
  rcases foldl_releaseIn_of_claims_once (c := c) allPatches honce with hsame | hreleased
  · have hgone := not_mem_claimants_release c l p q
    rw [release, hsame] at hgone
    exact absurd hp hgone
  · exact hreleased

/-! ### What a claim makes of a floor -/

theorem floorHeld_of_not_granting (h : ¬ Granting l q) : floorHeld l q = true := by
  rw [← Bool.not_eq_false]
  exact fun hfree => h (floorHeld_false hfree)

theorem claimedFloor_held (h : ¬ Granting l q) (floor : List Port) : claimedFloor c l q floor p = floor :=
  if_pos (floorHeld_of_not_granting h)

end Sys2Proof.FloorChanges

/-! SUPPORT. Claims and releases in a MIX patch (R48, R49, R55, R56). -/

namespace Sys2Proof.MixFloors

open Sys2Proof.Machine Sys2Proof.Safety Sys2Proof.Claims Sys2Proof.Keying Sys2Proof.ClaimSteps Sys2Proof.Follow
  Sys2Proof.Selection Sys2Proof.FloorChanges

section

variable {c : Settings} {l : Live} {p : Port} {q : Patch}

theorem fourLowest_as_stated (c : Settings) (l : Live) (q : Patch) :
    let talkers := fourLowest c l q
    talkers.length ≤ 4 ∧ talkers.Pairwise (fun a b => a.val < b.val) ∧ (∀ p ∈ talkers, p ∈ candidates c l q) ∧
    ∀ p ∈ candidates c l q, p ∉ talkers → talkers.length = 4 ∧ ∀ r ∈ talkers, arbKey c l q r < arbKey c l q p :=
  ⟨length_fourLowest_le c l q, portSet_ascending _, fun _ => mem_candidates_of_fourLowest,
    fun _ => fourLowest_passes_over⟩

theorem isSome_memberIn_claimants (hclaims : ClaimLaw c l) {r : Port} (hr : r ∈ claimantsOf l q) :
    (memberIn c l q r).isSome = true := isSome_of_talkMember (hclaims.1 q r hr).1

theorem floor_claim_mix (hplan : PlanLaw c) (hset : SettingsLaw c) (hclaims : ClaimLaw c l) (htalks : TalksIn c l p q)
    (hm : (ctxOf l q).mode = .mix) (hg : Granting l q) :
    (ctxOf (claim c p l) q).floor = fourLowest c (entered p q l) q := by
  have hctx := ctxOf_entered (l := l) (p := p) (q := q)
  rw [claim_eq htalks, claimedFloor_granting (granting_entered.2 hg) (by rw [hctx]; exact hm)]
  refine floor_installFloor_four hplan hset (by rw [hctx]; exact hg.1) fun r hr => ?_
  rw [claimantsOf_entered, mem_addPort] at hr
  rcases hr with rfl | hr
  · exact isSome_of_talkMember htalks.2
  · exact isSome_memberIn_claimants hclaims hr

theorem floor_release_mix (hplan : PlanLaw c) (hset : SettingsLaw c) (hclaims : ClaimLaw c l)
    (hp : p ∈ claimantsOf l q) (hm : (ctxOf l q).mode = .mix) (hg : Granting l q) :
    (ctxOf (releaseIn c p l q) q).floor = fourLowest c (withdrawn p q l) q := by
  have hctx := ctxOf_withdrawn (l := l) (p := p) (q := q)
  rw [releaseIn_installs hp (.inr hm),
    refilledFloor_granting (granting_withdrawn.2 hg) (by rw [hctx]; exact hm)]
  refine floor_installFloor_four hplan hset (by rw [hctx]; exact hg.1) fun r hr => ?_
  rw [claimantsOf_withdrawn, mem_dropPort] at hr
  exact isSome_memberIn_claimants hclaims hr.1

/-- A claimant of a patch claims in no other: it is a member there alone (R4). -/
theorem claims_once (hplan : PlanLaw c) (hclaims : ClaimLaw c l) (hp : p ∈ claimantsOf l q) (r : Patch)
    (hr : p ∈ claimantsOf l r) : r = q := talkMember_unique hplan (hclaims.1 r p hr).1 (hclaims.1 q p hp).1

end

/-- Settles O48: the lowest keys that selection repeated gives; and claim and release as the installing of a floor, which
a hand-on keeps, because no port on it is released as others key. -/
theorem mixFloorIsTheFourLowest : Obligations.MixFloorIsTheFourLowest := by
  refine ⟨fourLowest_as_stated, fun c l p q htalks hm hplan hset hclaims => ⟨fun hg => ?claimed, fun hg => ?claimHeld⟩,
    fun c l p q hm hp hplan hset hclaims => ⟨not_mem_claimants_release c l p q, fun hg => ?released, fun hg => ?releaseHeld⟩⟩
  case claimed =>
    rw [floor_claim_mix hplan hset hclaims htalks hm hg, entered, addPort_eq]
    simp only [Bool.decide_or, List.contains_eq_mem]
  case claimHeld =>
    have hheld : ¬ Granting (entered p q l) q := mt granting_entered.1 hg
    rw [claim_eq htalks, floor_installFloor_unselected (fun h => hheld h.2), claimedFloor_held hheld]
  case released =>
    rw [release_once hp (claims_once hplan hclaims hp)]
    exact floor_release_mix hplan hset hclaims hp hm hg
  case releaseHeld =>
    have hheld : ¬ Granting (withdrawn p q l) q := mt granting_withdrawn.1 hg
    rw [release_once hp (claims_once hplan hclaims hp), releaseIn_installs hp (.inr hm),
      floor_installFloor_unselected (fun h => hheld h.2), refilledFloor_held hheld]
    rfl

end Sys2Proof.MixFloors

/-! SUPPORT. Claims, releases and EMG rises in a SINGLE patch (R45 to R47, R50, R52 to R56). -/

namespace Sys2Proof.SingleFloors

open Sys2Proof.Machine Sys2Proof.Safety Sys2Proof.Claims Sys2Proof.Keying Sys2Proof.Follow Sys2Proof.Selection
  Sys2Proof.FloorChanges

section

variable {c : Settings} {l : Live} {p : Port} {q : Patch}

/-! ### What a claim makes of a floor, by restriction and holder -/

section

variable (hg : Granting l q) (hm : (ctxOf l q).mode = .single)
include hg hm

theorem claimedFloor_maydayPort (hr : (ctxOf l q).restriction = some p) (floor : List Port) :
    claimedFloor c l q floor p = [p] := by
  simp only [claimedFloor, floorHeld_of_granting hg, hm, hr, if_true, Bool.false_eq_true, if_false]

theorem claimedFloor_refused {mp : Port} (hr : (ctxOf l q).restriction = some mp) (hp : p ≠ mp)
    (hallowed : ¬ AllowedUnder c l q mp p) (floor : List Port) : claimedFloor c l q floor p = floor := by
  have hport : ¬ some mp = some p := fun h => hp (Option.some.inj h).symm
  simp only [claimedFloor, floorHeld_of_granting hg, hm, hr, hport, mt eligible_mayday_iff.1 hallowed, Bool.false_eq_true,
    if_false]

section

variable (hr : (ctxOf l q).restriction ≠ some p) (he : eligible c l q (ctxOf l q).restriction p = true)
include hr he

/-- A claim that is eligible takes a free floor by selection (R45, R53). -/
theorem claimedFloor_eligible_free : claimedFloor c l q [] p = selectedFloor c l q := by
  simp only [claimedFloor, floorHeld_of_granting hg, hm, hr, he, if_true, Bool.false_eq_true, if_false]

/-- A claim that is eligible takes the floor from a holder by strictly lower rank, where the holder may be preempted
(R46, R53). -/
theorem claimedFloor_eligible_taken (h : Port) (rest : List Port) : claimedFloor c l q (h :: rest) p =
    if preemptible c l q h = true ∧ rankIn c l q p < rankIn c l q h then [p] else h :: rest := by
  simp only [claimedFloor, floorHeld_of_granting hg, hm, hr, he, if_true, Bool.false_eq_true, if_false, Bool.and_eq_true,
    decide_eq_true_eq]

end

section

variable (hr : (ctxOf l q).restriction = none)
include hr

theorem claimedFloor_unrestricted_free :
    IsSelected c l q (claimantsOf l q) (claimedFloor c l q [] p) := by
  rw [claimedFloor_eligible_free hg hm (by rw [hr]; simp) (by rw [hr]; rfl), ← candidates_unrestricted (c := c) hr]
  exact isSelected_select ..

theorem claimedFloor_unrestricted_taken (h : Port) (rest : List Port) : claimedFloor c l q (h :: rest) p =
    if rankIn c l q p < rankIn c l q h then [p] else h :: rest := by
  rw [claimedFloor_eligible_taken hg hm (by rw [hr]; simp) (by rw [hr]; rfl)]
  simp only [preemptible_unrestricted hr, true_and]

end

variable {mp : Port} (hr : (ctxOf l q).restriction = some mp) (hp : p ≠ mp) (ha : AllowedUnder c l q mp p)
include hr hp ha

theorem claimedFloor_allowed_free :
    IsSelected c l q ((claimantsOf l q).filter (eligible c l q (some mp))) (claimedFloor c l q [] p) := by
  have hport : (ctxOf l q).restriction ≠ some p := by rw [hr]; exact fun h => hp (Option.some.inj h).symm
  rw [claimedFloor_eligible_free hg hm hport (by rw [hr]; exact eligible_mayday_iff.2 ha), ← candidates_restricted hr]
  exact isSelected_select ..

theorem claimedFloor_allowed_taken (h : Port) (rest : List Port) : claimedFloor c l q (h :: rest) p =
    if h ≠ mp ∧ AllowedUnder c l q mp h ∧ rankIn c l q p < rankIn c l q h then [p] else h :: rest := by
  have hport : (ctxOf l q).restriction ≠ some p := by rw [hr]; exact fun h => hp (Option.some.inj h).symm
  have hpreempt : preemptible c l q h = true ↔ h ≠ mp ∧ AllowedUnder c l q mp h := by
    rw [preemptible, hr, Bool.and_eq_true, decide_eq_true_eq, eligible_mayday_iff, ne_eq, Option.some.injEq, eq_comm]
  rw [claimedFloor_eligible_taken hg hm hport (by rw [hr]; exact eligible_mayday_iff.2 ha)]
  simp only [hpreempt, and_assoc]

end

/-! ### Claims -/

theorem not_selects_of_single (hm : (ctxOf l q).mode = .single) : ¬ Selects l q := fun h => by
  rw [h.1] at hm
  exact absurd hm (by decide)

theorem not_selects_entered (hm : (ctxOf l q).mode = .single) : ¬ Selects (entered p q l) q :=
  not_selects_of_single (by rw [ctxOf_entered]; exact hm)

theorem floor_claim_single (htalks : TalksIn c l p q) (hm : (ctxOf l q).mode = .single) :
    (ctxOf (claim c p l) q).floor = claimedFloor c (entered p q l) q (ctxOf l q).floor p := by
  rw [claim_eq htalks, floor_installFloor_unselected (not_selects_entered hm)]

theorem reads_claim_single (htalks : TalksIn c l p q) (hm : (ctxOf l q).mode = .single) (hg : Granting l q) {h : Port}
    (hh : h ∈ (ctxOf (claim c p l) q).floor) (hnew : h ∉ (ctxOf l q).floor) : reads (claim c p l) h q = false := by
  rw [floor_claim_single htalks hm] at hh
  rw [claim_eq htalks]
  have hctx := ctxOf_entered (l := l) (p := p) (q := q)
  exact reads_installFloor (not_selects_entered hm) (by rw [hctx]; exact hg.1) hh (by rw [hctx]; exact hnew)

theorem claim_single_as_stated (htalks : TalksIn c l p q) (hm : (ctxOf l q).mode = .single) :
    let t := claim c p l
    let claiming := fun r : Port => r = p ∨ r ∈ claimantsOf l q
    let among := allPorts.filter (fun r => decide (claiming r))
    (¬ Granting l q → (ctxOf t q).floor = (ctxOf l q).floor) ∧
    (Granting l q → (ctxOf l q).restriction = none → (ctxOf l q).floor = [] →
      IsSelected c l q among (ctxOf t q).floor) ∧
    (∀ h rest, Granting l q → (ctxOf l q).restriction = none → (ctxOf l q).floor = h :: rest →
      (ctxOf t q).floor = (if rankIn c l q p < rankIn c l q h then [p] else h :: rest)) ∧
    (Granting l q → (ctxOf l q).restriction = some p → (ctxOf t q).floor = [p]) ∧
    (∀ mp, Granting l q → (ctxOf l q).restriction = some mp → p ≠ mp → ¬ AllowedUnder c l q mp p →
      (ctxOf t q).floor = (ctxOf l q).floor) ∧
    (∀ mp h rest, Granting l q → (ctxOf l q).restriction = some mp → p ≠ mp → AllowedUnder c l q mp p →
      (ctxOf l q).floor = h :: rest →
      (ctxOf t q).floor =
        (if h ≠ mp ∧ AllowedUnder c l q mp h ∧ rankIn c l q p < rankIn c l q h then [p] else h :: rest)) ∧
    (∀ mp, Granting l q → (ctxOf l q).restriction = some mp → p ≠ mp → AllowedUnder c l q mp p →
      (ctxOf l q).floor = [] →
      IsSelected c l q (among.filter (eligible c l q (some mp))) (ctxOf t q).floor) ∧
    (∀ h ∈ (ctxOf t q).floor, Granting l q → h ∉ (ctxOf l q).floor → reads t h q = false) := by
  intro t claiming among
  have hfloor : (ctxOf t q).floor = claimedFloor c (entered p q l) q (ctxOf l q).floor p := floor_claim_single htalks hm
  have hclaims : claimantsOf (entered p q l) q = among := by rw [claimantsOf_entered, addPort_eq]
  have hg' : Granting l q → Granting (entered p q l) q := granting_entered.2
  have hm' : (ctxOf (entered p q l) q).mode = .single := by rw [ctxOf_entered, hm]
  have hr' : ∀ {r : Option Port}, (ctxOf l q).restriction = r → (ctxOf (entered p q l) q).restriction = r := by
    rw [ctxOf_entered]
    exact id
  refine ⟨fun hg => ?held, fun hg hr hfree => ?free, fun h rest hg hr htaken => ?taken, fun hg hr => ?maydayPort,
    fun mp hg hr hp ha => ?refused, fun mp h rest hg hr hp ha htaken => ?allowedTaken,
    fun mp hg hr hp ha hfree => ?allowedFree, fun h hh hg hnew => reads_claim_single htalks hm hg hh hnew⟩
  case held => rw [hfloor, claimedFloor_held (mt granting_entered.1 hg)]
  case free =>
    rw [hfloor, hfree, ← hclaims]
    exact claimedFloor_unrestricted_free (hg' hg) hm' (hr' hr)
  case taken =>
    rw [hfloor, htaken, claimedFloor_unrestricted_taken (hg' hg) hm' (hr' hr)]
    rfl
  case maydayPort => rw [hfloor, claimedFloor_maydayPort (hg' hg) hm' (hr' hr)]
  case refused => rw [hfloor, claimedFloor_refused (hg' hg) hm' (hr' hr) hp ha]
  case allowedTaken =>
    rw [hfloor, htaken, claimedFloor_allowed_taken (hg' hg) hm' (hr' hr) hp ha]
    rfl
  case allowedFree =>
    rw [hfloor, hfree, ← hclaims]
    exact claimedFloor_allowed_free (hg' hg) hm' (hr' hr) hp ha

/-! ### Releases -/

theorem dropPort_self (p : Port) : dropPort p [p] = [] := by simp [dropPort]

theorem refilledFloor_free (hg : Granting l q) (hm : (ctxOf l q).mode = .single) :
    refilledFloor c l q [] = selectedFloor c l q := by
  rw [refilledFloor, floorHeld_of_granting hg, hm]
  rfl

/-- The floor that a holder's release leaves in a SINGLE patch. -/
theorem floor_releaseIn_holder (hm : (ctxOf l q).mode = .single) (hp : p ∈ claimantsOf l q)
    (hfloor : (ctxOf l q).floor = [p]) :
    (ctxOf (releaseIn c p l q) q).floor = refilledFloor c (withdrawn p q l) q [] := by
  have hsingle : (ctxOf (withdrawn p q l) q).mode = .single := by rw [ctxOf_withdrawn, hm]
  have hon : p ∈ (ctxOf l q).floor := by rw [hfloor]; exact List.mem_singleton_self p
  rw [releaseIn_installs hp (.inl hon), floor_installFloor_unselected (not_selects_of_single hsingle), hfloor,
    dropPort_self]

theorem release_single_as_stated (hm : (ctxOf l q).mode = .single) (hp : p ∈ claimantsOf l q)
    (honce : ∀ r : Patch, r ≠ q → p ∉ claimantsOf l r) :
    let t := release c p l
    let others := (claimantsOf l q).filter (fun r => r ≠ p)
    (∀ r : Patch, p ∉ claimantsOf t r) ∧
    (p ∉ (ctxOf l q).floor → (ctxOf t q).floor = (ctxOf l q).floor) ∧
    (¬ Granting l q → (ctxOf l q).floor = [p] → (ctxOf t q).floor = []) ∧
    (Granting l q → (ctxOf l q).restriction = none → (ctxOf l q).floor = [p] →
      IsSelected c l q others (ctxOf t q).floor) ∧
    (∀ mp, Granting l q → (ctxOf l q).restriction = some mp → (ctxOf l q).floor = [p] →
      IsSelected c l q (others.filter (eligible c l q (some mp))) (ctxOf t q).floor) := by
  intro t others
  have ht : t = releaseIn c p l q := release_once hp fun r hr => by_contra fun hne => honce r hne hr
  have hclaims : claimantsOf (withdrawn p q l) q = others := claimantsOf_withdrawn
  have hm' : (ctxOf (withdrawn p q l) q).mode = .single := by rw [ctxOf_withdrawn, hm]
  have hr' : ∀ {r : Option Port}, (ctxOf l q).restriction = r → (ctxOf (withdrawn p q l) q).restriction = r := by
    rw [ctxOf_withdrawn]
    exact id
  refine ⟨not_mem_claimants_release c l p, fun hout => ?waiting, fun hg hfloor => ?held, fun hg hr hfloor => ?refilled,
    fun mp hg hr hfloor => ?restricted⟩
  case waiting => rw [ht, releaseIn_waiting hp hm hout, ctxOf_withdrawn]
  case held => rw [ht, floor_releaseIn_holder hm hp hfloor, refilledFloor_held (mt granting_withdrawn.1 hg)]
  case refilled =>
    rw [ht, floor_releaseIn_holder hm hp hfloor, refilledFloor_free (granting_withdrawn.2 hg) hm', ← hclaims,
      ← candidates_unrestricted (c := c) (hr' hr)]
    exact isSelected_select c (withdrawn p q l) q _
  case restricted =>
    rw [ht, floor_releaseIn_holder hm hp hfloor, refilledFloor_free (granting_withdrawn.2 hg) hm', ← hclaims]
    have hselected := isSelected_select c (withdrawn p q l) q (candidates c (withdrawn p q l) q)
    rw [candidates_restricted (hr' hr)] at hselected
    rw [selectedFloor, candidates_restricted (hr' hr)]
    exact hselected

/-! ### Rises of an EMG level -/

theorem emgRise_unrestricted (h : ∀ q, portPatch c l p = some q → (ctxOf l q).restriction = none) : emgRise c p l = l := by
  unfold emgRise
  split
  · rename_i q hq
    rw [h q hq]
    rfl
  · rfl

section

variable {mp : Port} (hpatch : portPatch c l p = some q) (hr : (ctxOf l q).restriction = some mp)
include hpatch hr

theorem emgRise_waiting (hclaims : p ∈ claimantsOf l q) (hout : p ∉ (ctxOf l q).floor) :
    emgRise c p l = installFloor c q (claimedFloor c l q (ctxOf l q).floor p) l := by
  simp [emgRise, hpatch, hr, hclaims, onFloor, hout]

theorem emgRise_of_not_waiting (h : ¬ (p ∈ claimantsOf l q ∧ p ∉ (ctxOf l q).floor)) : emgRise c p l = l := by
  simp only [emgRise, hpatch, hr, onFloor]
  refine if_neg ?_
  simpa using h

theorem emgRise_as_stated (hm : (ctxOf l q).mode = .single) :
    let t := emgRise c p l
    let waits := p ∈ claimantsOf l q ∧ p ∉ (ctxOf l q).floor
    (¬ waits → t = l) ∧
    (waits → ¬ Granting l q ∨ ¬ AllowedUnder c l q mp p → (ctxOf t q).floor = (ctxOf l q).floor) ∧
    (waits → Granting l q → p = mp → (ctxOf t q).floor = [p]) ∧
    (∀ h rest, waits → Granting l q → p ≠ mp → AllowedUnder c l q mp p → (ctxOf l q).floor = h :: rest →
      (ctxOf t q).floor =
        (if h ≠ mp ∧ AllowedUnder c l q mp h ∧ rankIn c l q p < rankIn c l q h then [p] else h :: rest)) ∧
    (waits → Granting l q → p ≠ mp → AllowedUnder c l q mp p → (ctxOf l q).floor = [] →
      IsSelected c l q ((claimantsOf l q).filter (eligible c l q (some mp))) (ctxOf t q).floor) := by
  intro t waits
  have hfloor : waits → (ctxOf t q).floor = claimedFloor c l q (ctxOf l q).floor p := fun hw => by
    show (ctxOf (emgRise c p l) q).floor = _
    rw [emgRise_waiting hpatch hr hw.1 hw.2, floor_installFloor_unselected (not_selects_of_single hm)]
  refine ⟨emgRise_of_not_waiting hpatch hr, fun hw hstays => ?stays, fun hw hg hp => ?maydayPort,
    fun h rest hw hg hp ha htaken => ?taken, fun hw hg hp ha hfree => ?free⟩
  case stays =>
    rw [hfloor hw]
    by_cases hg : Granting l q
    · have ha := hstays.resolve_left (not_not.2 hg)
      exact claimedFloor_refused hg hm hr (fun hp => ha (.inl hp)) ha _
    · exact claimedFloor_held hg _
  case maydayPort => rw [hfloor hw, claimedFloor_maydayPort hg hm (hp ▸ hr)]
  case taken => rw [hfloor hw, htaken, claimedFloor_allowed_taken hg hm hr hp ha]
  case free =>
    rw [hfloor hw, hfree]
    exact claimedFloor_allowed_free hg hm hr hp ha

end

end

/-- Settles O47: a claim, a release and an EMG rise each install the floor that arbitration gives, and a hand-on leaves
the floor of a SINGLE patch as it is. -/
theorem singleFloorFollowsClaimsAndReleases : Obligations.SingleFloorFollowsClaimsAndReleases :=
  ⟨fun _ _ _ _ htalks hm => claim_single_as_stated htalks hm,
    fun _ _ _ _ hm hp honce => release_single_as_stated hm hp honce,
    fun _ _ _ _ _ hpatch hm hr => emgRise_as_stated hpatch hr hm, fun _ _ _ h => emgRise_unrestricted h⟩

end Sys2Proof.SingleFloors

/-! SUPPORT. The sample stores: no operation but the ring work of a frame writes a ring; and every step keeps the stores
canonical. -/

namespace Sys2Proof.SampleStores

open Sys2Proof.Machine Sys2Proof.Safety Sys2Proof.Claims Sys2Proof.Keying Sys2Proof.LiveSteps Sys2Proof.LiveRuns
  Sys2Proof.SoundSteps Sys2Proof.Deletions

/-! ### Stores kept or discarded -/

/-- Every ring's store is kept or discarded as a whole (R65). -/
def Sheds (l l' : Live) : Prop :=
  ∀ q, (look l'.rings q).store = (look l.rings q).store ∨ (look l'.rings q).store = []

theorem Sheds.of_rings {l l' : Live} (h : l'.rings = l.rings) : Sheds l l' := fun q => .inl (by rw [h])

theorem Sheds.refl (l : Live) : Sheds l l := .of_rings rfl

theorem Sheds.trans {a b d : Live} (h : Sheds a b) (k : Sheds b d) : Sheds a d := by
  intro q
  rcases k q with hk | hk
  · rw [hk]
    exact h q
  · exact .inr hk

theorem Sheds.of_beyond {l l' : Live} (h : l'.beyondFloors = l.beyondFloors) : Sheds l l' :=
  .of_rings (beyondFloors_fields h).2.1

theorem Sheds.of_keyRun {c : Settings} {l l' : Live} (h : KeyRun c l l') : Sheds l l' := .of_beyond h.tuned.rest

theorem raise_sheds (src : Source) (e : Cond) (l : Live) : Sheds l (l.raise src e) := .of_rings rfl

theorem setOvr_sheds (q : Patch) (o : OverrideState) (l : Live) : Sheds l (l.setOvr q o) := .of_rings rfl

theorem setLamp_sheds (p : Port) (b : Bool) (l : Live) : Sheds l (l.setLamp p b) := .of_rings rfl

theorem setRx_sheds (p : Port) (x : RxPort) (l : Live) : Sheds l (l.setRx p x) := .of_rings rfl

theorem setGuests_sheds (holder : Option Patch) (queue : List Patch) (l : Live) :
    Sheds l { l with guestHolder := holder, guestQueue := queue } := .of_rings rfl

theorem settleKeys_sheds (c : Settings) (l : Live) : Sheds l (settleKeys c l) := .of_beyond (settleKeys_beyondFloors c l)

theorem install_sheds (c : Settings) (q : Patch) (ctx : Context) (l : Live) : Sheds l (install c q ctx l) :=
  .of_beyond (install_beyondFloors c q ctx l)

theorem installFloor_sheds (c : Settings) (q : Patch) (floor : List Port) (l : Live) :
    Sheds l (installFloor c q floor l) := .of_beyond (installFloor_beyondFloors c q floor l)

theorem Sheds.foldl {α : Type} {f : Live → α → Live} (hf : ∀ l x, Sheds l (f l x)) (xs : List α) (l : Live) :
    Sheds l (xs.foldl f l) :=
  foldl_keeps (fun l' => Sheds l l') f (fun _ x h => h.trans (hf _ x)) xs l (.refl l)

/-- Stores in order stay in order where they are kept or discarded. -/
theorem Sheds.storeOk {l l' : Live} (h : Sheds l l') {size : Nat}
    (hl : ∀ q, storeOk size (look l.rings q).store = true) (q : Patch) :
    storeOk size (look l'.rings q).store = true := by
  rcases h q with hkept | hgone
  · rw [hkept]
    exact hl q
  · rw [hgone]
    exact storeOk_nil size

/-! ### Rings and switches -/

theorem emptyRing_sheds (q : Patch) (l : Live) : Sheds l (emptyRing q l) := by
  intro r
  rw [emptyRing, Live.setRing_rings, look_put]
  split
  · exact .inr rfl
  · exact .inl rfl

theorem flushRing_sheds (q : Patch) (l : Live) : Sheds l (flushRing q l) := by
  have hflushed := Sheds.foldl (f := flushPort (look l.rings q).head) (fun _ _ => .of_rings rfl) (readersOf l q) l
  exact hflushed.trans (emptyRing_sheds q _)

theorem defaultFloor_sheds (c : Settings) (l : Live) (q : Patch) : Sheds l (defaultFloor c l q) := .of_rings rfl

theorem arbitrateFresh_sheds (c : Settings) (l : Live) (q : Patch) : Sheds l (arbitrateFresh c l q) :=
  .of_beyond (by simp [arbitrateFresh])

theorem startFresh_sheds (c : Settings) (l : Live) (q : Patch) : Sheds l (startFresh c l q) :=
  (defaultFloor_sheds c l q).trans (emptyRing_sheds q _)

theorem swapFault_sheds (c : Settings) (involved : List Patch) (l : Live) (p : Port) :
    Sheds l (swapFault c involved l p) := by
  unfold swapFault
  split
  · exact .of_beyond (clearFault_beyondFloors p l)
  · exact .refl l

theorem swap_sheds (c : Settings) (involved : List Patch) (outcome : LastOutcome) (l : Live) :
    Sheds l (swap c involved outcome l) := by
  have hflip : Sheds l (flipBanks l) := .of_rings rfl
  have hend : ∀ l, Sheds l ((endSwitch involved outcome l).raise systemSource .switchDone) := fun _ => .of_rings rfl
  exact hflip.trans <| (Sheds.foldl (startFresh_sheds c) involved _).trans <|
    (Sheds.foldl (swapFault_sheds c involved) allPorts _).trans <|
    (Sheds.foldl (arbitrateFresh_sheds c) involved _).trans (hend _)

theorem cutPatch_sheds (c : Settings) (l : Live) (q : Patch) : Sheds l (cutPatch c l q) := by
  have hcut : Sheds l (l.setCtx q { ctxOf l q with floor := [] }) := .of_rings rfl
  exact hcut.trans <|
    (Sheds.foldl (fun l p => .of_beyond (unkey_beyondFloors c p l)) _ _).trans (emptyRing_sheds q _)

theorem force_sheds (c : Settings) (involved : List Patch) (l : Live) : Sheds l (force c involved l) :=
  (Sheds.foldl (cutPatch_sheds c) involved l).trans (swap_sheds c involved .forced _)

theorem thawPatch_sheds (c : Settings) (l : Live) (q : Patch) : Sheds l (thawPatch c l q) := by
  have hthaw : Sheds l (l.setFreezing q false) := .of_rings rfl
  exact hthaw.trans (installFloor_sheds c q _ _)

theorem abort_sheds (c : Settings) (reason : AbortReason) (l : Live) : Sheds l (abort c reason l) :=
  (Sheds.foldl (thawPatch_sheds c) l.switch.involved l).trans (.of_rings rfl)

theorem setPending_sheds (involved : List Patch) (grace : Nat) (l : Live) : Sheds l (setPending involved grace l) :=
  (Sheds.foldl (f := freezePatch) (fun _ _ => .of_rings rfl) involved l).trans (.of_rings rfl)

theorem idleTest_sheds (c : Settings) (l : Live) : Sheds l (idleTest c l) := by
  rcases idleTest_cases c l with h | ⟨-, -, ⟨-, h⟩ | ⟨-, h⟩⟩ <;> rw [h]
  · exact .refl l
  · exact swap_sheds c _ _ l
  · exact force_sheds c _ l

theorem closeEvent_sheds (c : Settings) (l : Live) : Sheds l (closeEvent c l) :=
  (idleTest_sheds c l).trans (.of_rings (recordRaised_rings c _))

/-- An event that keeps or discards stores does so to its end. -/
theorem Sheds.closed {l l' : Live} (c : Settings) (h : Sheds l l') : Sheds l (closeEvent c l') :=
  h.trans (closeEvent_sheds c l')

/-! ### Overrides and the guest resource -/

theorem attach_sheds (c : Settings) (q : Patch) (l : Live) : Sheds l (attach c q l) :=
  (setGuests_sheds (some q) l.guestQueue l).trans <|
    (Sheds.foldl (fun l p => .of_beyond (unkey_beyondFloors c p l)) consolePorts _).trans <|
    (Sheds.of_keyRun (guestKeys_run c q _)).trans (settleKeys_sheds c _)

theorem detach_sheds (c : Settings) (q : Patch) (l : Live) : Sheds l (detach c q l) :=
  (Sheds.of_keyRun (unkeyGuests_run c q l)).trans <| (setGuests_sheds none _ _).trans (settleKeys_sheds c _)

theorem requestGuest_sheds (c : Settings) (q : Patch) (l : Live) : Sheds l (requestGuest c q l) := by
  unfold requestGuest
  split
  · exact attach_sheds c q l
  · exact setGuests_sheds l.guestHolder _ l

theorem giveUpGuest_sheds (c : Settings) (q : Patch) (l : Live) : Sheds l (giveUpGuest c q l) := by
  unfold giveUpGuest
  split
  · split
    · exact detach_sheds c q l
    · exact (setGuests_sheds l.guestHolder _ l).trans (attach_sheds c _ _)
  · exact setGuests_sheds l.guestHolder _ l

theorem stopCadence_rings (l : Live) : (stopCadence l).rings = l.rings := by
  unfold stopCadence
  split <;> rfl

theorem startCadence_rings (c : Settings) (l : Live) : (startCadence c l).rings = l.rings := by
  unfold startCadence
  split <;> rfl

theorem exemptPort_sheds (c : Settings) (p : Port) (l : Live) : Sheds l (exemptPort c p l) := by
  unfold exemptPort
  split
  · exact .of_rings rfl
  · exact .of_beyond (liftLockout_beyondFloors c p l)

theorem announceMayday_sheds (c : Settings) (q : Patch) (p : Port) (l : Live) :
    Sheds l (announceMayday c q p l) :=
  (exemptPort_sheds c p l).trans <| (setLamp_sheds p true _).trans <|
    (requestGuest_sheds c q _).trans (raise_sheds _ _ _)

theorem beginMayday_sheds (c : Settings) (q : Patch) (p : Port) (l : Live) : Sheds l (beginMayday c q p l) := by
  have hbase : Sheds l (if (look l.fla q).freezing then abort c .mayday l else l) := by
    split
    · exact abort_sheds c _ l
    · exact .refl l
  exact hbase.trans <| (setOvr_sheds q _ _).trans <|
    (Sheds.of_beyond (installRestricted_beyondFloors c q _ _)).trans (announceMayday_sheds c q p _)

theorem emergencyEvent_sheds (c : Settings) (p : Port) (l : Live) : Sheds l (emergencyEvent c p l) := by
  unfold emergencyEvent
  split
  · exact .refl l
  · exact .refl l
  · exact .refl l
  · exact (setOvr_sheds _ _ l).trans (raise_sheds _ _ _)
  · exact beginMayday_sheds c _ p l

theorem endExemption_rings (c : Settings) (p : Port) (l : Live) : (endExemption c p l).rings = l.rings := by
  unfold endExemption
  split <;> rfl

theorem endMayday_sheds (c : Settings) (q : Patch) (p : Port) (l : Live) : Sheds l (endMayday c q p l) := by
  unfold endMayday
  dsimp only
  exact (install_sheds c q _ l).trans <| (setOvr_sheds q _ _).trans <|
    (Sheds.of_rings (endExemption_rings c p _)).trans <| (setLamp_sheds p false _).trans (giveUpGuest_sheds c q _)

theorem beginAlert_sheds (c : Settings) (seconds : Nat) (l : Live) (q : Patch) :
    Sheds l (beginAlert c seconds l q) := by
  exact (setOvr_sheds q _ l).trans <| (install_sheds c q _ _).trans <| (flushRing_sheds q _).trans <|
    (Sheds.of_keyRun (pauseGuests_run c q _)).trans (.of_rings (startCadence_rings c _))

theorem beginAlerts_sheds (c : Settings) (seconds : Nat) (qs : List Patch) (l : Live) :
    Sheds l (beginAlerts c seconds qs l) := by
  have hfold := Sheds.foldl (beginAlert_sheds c seconds) qs
  unfold beginAlerts
  dsimp only
  split
  · exact (abort_sheds c _ l).trans (hfold _)
  · exact hfold l

theorem endAlertLatched_sheds (c : Settings) (q : Patch) (p : Port) (sv : Context) (l : Live) :
    Sheds l (endAlertLatched c q p sv l) := by
  exact (setOvr_sheds q _ l).trans <| (install_sheds c q _ _).trans (announceMayday_sheds c q p _)

theorem endAlert_sheds (c : Settings) (l : Live) (q : Patch) : Sheds l (endAlert c l q) := by
  have hend : ∀ l', Sheds l l' → Sheds l ((stopCadence (resumeGuests c q l')).raise (patchSource q) .alertEnd) :=
    fun l' h => h.trans <| (Sheds.of_keyRun (resumeGuests_run c q l')).trans <|
      (Sheds.of_rings (stopCadence_rings _)).trans (raise_sheds _ _ _)
  unfold endAlert
  dsimp only
  split
  · exact hend _ ((setOvr_sheds q _ l).trans (install_sheds c q _ _))
  · exact hend _ (endAlertLatched_sheds c q _ _ l)

/-! ### Events -/

theorem corRise_sheds (c : Settings) (p : Port) (l : Live) : Sheds l (corRise p c l) := by
  unfold corRise receiveRise
  dsimp only
  refine (setRx_sheds p { look l.rx p with cor := Debounce.settled true } l).trans ?_
  repeat' split
  · exact raise_sheds _ _ _
  · exact .refl _
  · exact .of_beyond (enterRxActive_beyondFloors c p _)
  · exact .refl _

theorem corFall_sheds (c : Settings) (p : Port) (l : Live) : Sheds l (corFall p c l) := by
  unfold corFall receiveFall
  dsimp only
  refine (setRx_sheds p { look l.rx p with cor := Debounce.settled false } l).trans ?_
  repeat' split
  · exact .refl _
  · exact .of_beyond (leaveRxActive_beyondFloors c p .quiet _)
  · exact setRx_sheds p _ _
  · exact .refl _

theorem emergencyRise_sheds (c : Settings) (p : Port) (l : Live) : Sheds l (emergencyRise p c l) := by
  exact (setRx_sheds p _ l).trans <| (raise_sheds _ _ _).trans <| (Sheds.of_beyond (emgRise_beyondFloors c p _)).trans (emergencyEvent_sheds c p _)

theorem talkTimeUp_sheds (c : Settings) (p : Port) (l : Live) : Sheds l (talkTimeUp p c l) :=
  (Sheds.of_beyond (leaveRxActive_beyondFloors c p .lockout l)).trans (raise_sheds _ _ _)

theorem keyUpDone_rings (l : Live) (p : Port) : (keyUpDone l p).rings = l.rings := by
  unfold keyUpDone
  dsimp only
  split <;> rfl

theorem confirmUp_sheds (c : Settings) (p : Port) (l : Live) : Sheds l (confirmUp p c l) :=
  (Sheds.of_beyond (leaveKeyed_beyondFloors c p .fault l)).trans (raise_sheds _ _ _)

/-! ### Edits -/

theorem portRecordChanged_sheds (c : Settings) (p : Port) (was : Bool) (l : Live) :
    Sheds l (portRecordChanged c p was l) := by
  unfold portRecordChanged
  repeat' split
  · exact .refl l
  · exact .of_beyond (beginIgnoring_beyondFloors c p l)
  · exact .of_beyond (startFreshCor_beyondFloors p l)
  · exact .refl l

theorem clearPort_sheds (c : Settings) (p : Port) (l : Live) : Sheds l (clearPort c p l) := by
  unfold clearPort
  split
  all_goals exact .of_beyond (by simp)

theorem liveDefine_sheds (c : Settings) (q : Patch) (old : PatchRec) (l : Live) : Sheds l (liveDefine c q old l) :=
  (defaultFloor_sheds c l q).trans <| (flushRing_sheds q _).trans <| (arbitrateFresh_sheds c _ q).trans <|
    .foldl (fun l p => .of_keyRun (freeRemoved_run c old _ l p)) _ _

theorem liveDelete_sheds (c : Settings) (q : Patch) (old : PatchRec) (l : Live) : Sheds l (liveDelete c q old l) :=
  (Sheds.of_keyRun (clearRemovedFaults_run c old _ l)).trans <| (defaultFloor_sheds c _ q).trans (flushRing_sheds q _)

theorem clearPatch_sheds (old c : Settings) (l : Live) (q : Patch) : Sheds l (clearPatch old c l q) := by
  unfold clearPatch
  split
  · exact liveDelete_sheds c q _ l
  · exact defaultFloor_sheds c l q

theorem liveEdit_sheds (c : Settings) (q : Patch) (old new : Option MemberRec) (l : Live) :
    Sheds l (liveEdit c q old new l) := by
  have hbase : Sheds l (editBase c q old new l) :=
    (Sheds.of_keyRun (withoutListener_run c q old new l)).trans (.of_rings rfl)
  unfold liveEdit
  split
  · exact .refl l
  · rw [editRights_eq]
    dsimp only
    refine hbase.trans ?_
    split
    · exact installFloor_sheds c q _ _
    · exact settleKeys_sheds c _

/-! ### Orders -/

theorem startSwitch_sheds (c : Settings) (grace : Nat) (l : Live) : Sheds l (startSwitch c grace l) := by
  unfold startSwitch
  dsimp only
  repeat' split
  · exact (swap_sheds c _ _ l).closed c
  · exact (force_sheds c _ l).closed c
  · exact setPending_sheds _ _ l

/-- No order writes a ring; LOAD TONE alone writes the tone memory. -/
structure WritesNoRing (c : Settings) (l : Live) (r : OrderResult) : Prop where
  rings : Sheds l r.live
  tone : storeOk Config.toneSize c.tone = true → storeOk Config.toneSize r.cfg.tone = true

theorem WritesNoRing.of_same {c c' : Settings} {l l' : Live} {st : Status} {data : List Byte}
    (htone : c'.tone = c.tone) (h : Sheds l l') :
    WritesNoRing c l { cfg := c', live := l', status := st, data := data } := ⟨h, fun hc => htone ▸ hc⟩

theorem WritesNoRing.refused (st : Status) (c : Settings) (l : Live) : WritesNoRing c l (refuse st c l) :=
  .of_same rfl (.refl l)

theorem orderLoadTone_writesNoRing (body : List Byte) (c : Settings) (l : Live) :
    WritesNoRing c l (orderLoadTone body c l) := by
  unfold orderLoadTone
  repeat' split
  · exact .refused ..
  · exact .refused ..
  · exact ⟨.refl l, storeOk_load Config.toneSize (by decide) _ _ _⟩

theorem orderDefinePatch_writesNoRing (body : List Byte) (c : Settings) (l : Live) :
    WritesNoRing c l (orderDefinePatch body c l) := by
  unfold orderDefinePatch
  dsimp only
  repeat' split
  · exact .refused ..
  · exact .refused ..
  · exact .of_same rfl ((liveDefine_sheds _ _ _ l).closed _)
  · exact .of_same rfl (.refl l)
  · exact .refused ..

theorem orderSetMember_writesNoRing (body : List Byte) (c : Settings) (l : Live) :
    WritesNoRing c l (orderSetMember body c l) := by
  unfold orderSetMember
  dsimp only
  repeat' split
  · exact .refused ..
  · exact .refused ..
  · exact .of_same rfl ((liveEdit_sheds _ _ _ _ l).closed _)
  · exact .of_same rfl (.refl l)
  · exact .refused ..

theorem orderDeletePatch_writesNoRing (body : List Byte) (c : Settings) (l : Live) :
    WritesNoRing c l (orderDeletePatch body c l) := by
  unfold orderDeletePatch
  dsimp only
  repeat' split
  · exact .refused ..
  · exact .refused ..
  · exact .of_same rfl ((liveDelete_sheds _ _ _ l).closed _)
  · exact .of_same rfl (defaultFloor_sheds _ l _)
  · exact .of_same rfl (.refl l)
  · exact .refused ..

theorem orderClearBank_writesNoRing (body : List Byte) (c : Settings) (l : Live) :
    WritesNoRing c l (orderClearBank body c l) := by
  unfold orderClearBank
  dsimp only
  repeat' split
  · exact .refused ..
  · exact .refused ..
  · exact .of_same rfl ((Sheds.foldl (clearPatch_sheds c _) allPatches l).closed _)
  · exact .of_same rfl (.refl l)
  · exact .refused ..

theorem OrderOutcome.writesNoRing {c : Settings} {l : Live} {r : OrderResult} (h : OrderOutcome c l r) :
    WritesNoRing c l r := by
  cases h with
  | refused st => exact .refused ..
  | answered data => exact .of_same rfl (.refl l)
  | setPort body =>
    unfold orderSetPort
    repeat' split
    · exact .refused ..
    · exact .of_same rfl ((portRecordChanged_sheds _ _ _ l).closed _)
    · exact .refused ..
  | clearPort body =>
    unfold orderClearPort
    repeat' split
    · exact .refused ..
    · exact .refused ..
    · exact .of_same rfl ((clearPort_sheds c _ l).closed c)
  | definePatch body => exact orderDefinePatch_writesNoRing body c l
  | setMember body => exact orderSetMember_writesNoRing body c l
  | deletePatch body => exact orderDeletePatch_writesNoRing body c l
  | clearBank body => exact orderClearBank_writesNoRing body c l
  | switchPlan body =>
    unfold orderSwitchPlan
    dsimp only
    repeat' split
    · exact .refused ..
    · exact .refused ..
    · exact .of_same rfl (startSwitch_sheds c _ l)
  | abortSwitch body =>
    unfold orderAbortSwitch
    repeat' split
    · exact .refused ..
    · exact .of_same rfl ((abort_sheds c _ l).closed c)
    · exact .refused ..
  | declareMayday body =>
    unfold orderDeclareMayday
    dsimp only
    repeat' split
    · exact .refused ..
    · exact .refused ..
    · exact .refused ..
    · exact .of_same rfl ((emergencyEvent_sheds c _ l).closed c)
  | clearMayday body =>
    unfold orderClearMayday
    repeat' split
    · exact .refused ..
    · exact .refused ..
    · exact .refused ..
    · exact .refused ..
    · exact .of_same rfl ((endMayday_sheds c _ _ l).closed c)
  | soundAlert body =>
    unfold orderSoundAlert
    dsimp only
    repeat' split
    · exact .refused ..
    · exact .refused ..
    · exact .of_same rfl ((beginAlerts_sheds c _ _ l).closed c)
  | cancelAlert body =>
    unfold orderCancelAlert
    split
    · exact .refused ..
    · exact .of_same rfl ((Sheds.foldl (endAlert_sheds c) _ l).closed c)
  | loadTone body => exact orderLoadTone_writesNoRing body c l
  | setCadence body =>
    unfold orderSetCadence
    repeat' split
    · exact .refused ..
    · exact .refused ..
    · exact .of_same rfl (.of_rings rfl)
  | flags tooHigh f keysw =>
    unfold flagOperation
    split
    · exact .refused ..
    · exact .of_same rfl (.refl l)
  | lock hard plk keysw =>
    unfold lockOperation
    split
    · exact .refused ..
    · exact .of_same rfl (.refl l)
  | setReportMask body =>
    unfold orderSetReportMask
    repeat' split
    · exact .refused ..
    · exact .refused ..
    · exact .of_same rfl (.refl l)
  | clearConditions body =>
    unfold orderClearConditions
    repeat' split
    · exact .refused ..
    · exact .refused ..
    · exact .of_same rfl (.of_rings rfl)

/-! ### The ring work -/

/-- The stores of the rings are in order. -/
def StoresOk (l : Live) : Prop := ∀ q : Patch, storeOk Config.ringSize (look l.rings q).store = true

theorem raiseIf_rings (b : Bool) (src : Source) (e : Cond) (l : Live) : (raiseIf b src e l).rings = l.rings := by
  unfold raiseIf
  split <;> rfl

theorem servePort_rings (c : Settings) (l : Live) (p : Port) : (servePort c l p).rings = l.rings := by
  unfold servePort takeSample
  dsimp only
  repeat' split
  · exact raiseIf_rings _ _ _ _
  all_goals rfl

theorem ringPosition_lt (n : Count) : ringPosition n < Config.ringSize := Nat.mod_lt _ (by decide)

theorem storesOk_pushed {l : Live} (q : Patch) (s : Sample) (h : StoresOk l) :
    StoresOk (l.setRing q (pushSample (look l.rings q) s)) := by
  intro r
  rw [Live.setRing_rings, look_put]
  split
  · exact storeOk_write _ _ _ s (ringPosition_lt _) (h q)
  · exact h r

theorem appendRing_storesOk (c : Settings) (received : Vector Sample 18) (alert : Sample × Bool) (l : Live) (q : Patch)
    (h : StoresOk l) : StoresOk (appendRing c received alert l q) := by
  have hdropped : StoresOk (allPorts.foldl (dropOldest q) l) :=
    (Sheds.foldl (fun l p => .of_rings (dropOldest_rings q l p)) allPorts l).storeOk h
  unfold appendRing
  dsimp only
  split
  · exact (Sheds.of_rings (raiseIf_rings _ _ _ _)).storeOk (storesOk_pushed q _ hdropped)
  · exact h

theorem recordAdvanced_sheds (c : Settings) (g : CadenceGen) (l : Live) :
    Sheds l (recordRaised c { l with gen := g }) := .of_rings (recordRaised_rings c { l with gen := g })

theorem ringWork_storesOk (c : Settings) (received : Vector Sample 18) (l : Live) (h : StoresOk l) :
    StoresOk (ringWork c received l) := by
  have hserved : Sheds l (allPorts.foldl (servePort c) (allPorts.foldl keyUpDone l)) :=
    (Sheds.foldl (fun l p => .of_rings (keyUpDone_rings l p)) allPorts l).trans
      (.foldl (fun l p => .of_rings (servePort_rings c l p)) allPorts _)
  have happended := foldl_keeps StoresOk
    (appendRing c received (alertSample c (allPorts.foldl (servePort c) (allPorts.foldl keyUpDone l)) received))
    (fun l q hl => appendRing_storesOk c received _ l q hl) allPatches _ (hserved.storeOk h)
  exact (recordAdvanced_sheds c _ _).storeOk happended

/-! ### Every step -/

theorem enterHangNow_rings (c : Settings) (l : Live) (p : Port) : (enterHangNow c l p).rings = l.rings := by
  unfold enterHangNow
  dsimp only
  split <;> rfl

theorem MemoryLaw.of_sheds {c : Settings} {l l' : Live} (h : MemoryLaw c l) (hs : Sheds l l') : MemoryLaw c l' :=
  ⟨h.1, hs.storeOk h.2⟩

theorem memoryLaw_fresh {c : Settings} (h : storeOk Config.toneSize c.tone = true) (a : Bank) (mode : Patch → Mode) :
    MemoryLaw c (Live.fresh a mode) := by
  refine ⟨h, fun q => ?_⟩
  rw [Resets.fresh_rings]
  exact storeOk_nil _

theorem liveMove_keeps_memoryLaw (a b : Settings × Live) (hm : LiveMove a b) (h : MemoryLaw a.1 a.2) :
    MemoryLaw b.1 b.2 := by
  cases hm
  all_goals dsimp only at h ⊢
  case enterHang c l p => exact MemoryLaw.of_sheds h (.of_rings (enterHangNow_rings c l p))
  case cadenceEnd c l _ => exact h
  case ringWork c l received => exact ⟨h.1, ringWork_storesOk c received l h.2⟩
  case tick c l hdi => exact h
  case corRise c l p => exact MemoryLaw.of_sheds h ((corRise_sheds c p l).closed c)
  case corFall c l p => exact MemoryLaw.of_sheds h ((corFall_sheds c p l).closed c)
  case emergencyRise c l p => exact MemoryLaw.of_sheds h ((emergencyRise_sheds c p l).closed c)
  case emgFall c l p => exact MemoryLaw.of_sheds h ((setRx_sheds p _ l).closed c)
  case talkTimeUp c l p => exact MemoryLaw.of_sheds h ((talkTimeUp_sheds c p l).closed c)
  case keyUpDone c l p => exact MemoryLaw.of_sheds h ((Sheds.of_rings (keyUpDone_rings l p)).closed c)
  case hangUp c l p => exact MemoryLaw.of_sheds h ((Sheds.of_keyRun (hangUp_run c p l)).closed c)
  case confirmUp c l p => exact MemoryLaw.of_sheds h ((confirmUp_sheds c p l).closed c)
  case alertTimer c l q _ => exact MemoryLaw.of_sheds h ((endAlert_sheds c l q).closed c)
  case grace c l _ => exact MemoryLaw.of_sheds h ((force_sheds c _ l).closed c)
  case graceFirst c l =>
    refine MemoryLaw.of_sheds h (.of_rings ?_)
    unfold putGraceFirst
    split <;> rfl
  case order c l r hr =>
    obtain ⟨hrings, htone⟩ := OrderOutcome.writesNoRing hr
    exact ⟨htone h.1, hrings.storeOk h.2⟩
  case report c l src rest _ => exact h
  case resetOrder c l => exact memoryLaw_fresh h.1 l.active fun q => (activeRecord c l q).mode
  case powerOn c l => exact memoryLaw_fresh rfl 0 _
  case rst c l => exact memoryLaw_fresh h.1 0 _
  case restart c l => exact h

/-- Settles O57: each move of a step keeps the stores, discards them, or writes one position in range. -/
theorem stepsKeepSampleStores : Obligations.StepsKeepSampleStores := by
  intro s t h hs
  unfold step at hs
  split at hs
  · injection hs with e
    exact e ▸ h
  · exact (exec_run _ _ _ hs).keeps liveMove_keeps_memoryLaw h

end Sys2Proof.SampleStores

/-! SUPPORT. The steps that come about at once, as the commands that take them (R71, R92, R158, R159, R162, R163). -/

namespace Sys2Proof.ImmediateSteps

open Sys2Proof.Machine Sys2Proof.Claims

/-! ### The channel's immediate steps -/

theorem handOnMessage_parsed (k : Byte) (body : List Byte) (rtr : Bool) (m : Channel) :
    (handOnMessage k body rtr m).parsed = none := by
  unfold handOnMessage
  split
  · rfl
  · exact owe_parsed _ _ _

/-- A finished message is handed on by MESSAGE_COMPLETE or by MESSAGE_ABANDONED, and the other of the two finds none. -/
theorem takeAbandoned_takeMessage (m : Channel) : takeAbandoned (takeMessage m) = handOnParsed m := by
  unfold takeMessage handOnParsed
  split
  · rename_i k body rtr h
    rw [takeAbandoned, handOnMessage_parsed]
  · rename_i k h
    rw [takeAbandoned, h]
  · rename_i h
    rw [takeAbandoned, h]

theorem moveOwed_of_full {m : Channel} (h : Config.replyPlaces ≤ m.replies.length) : moveOwed m = m := by
  unfold moveOwed
  split
  · rw [if_neg (Nat.not_lt.2 h)]
  · rfl

/-- An owed refusal that moves takes a free place of the reply queue (R162). -/
theorem moveOwed_cases (m : Channel) : moveOwed m = m ∨ (moveOwed m).replies.length = m.replies.length + 1 := by
  unfold moveOwed
  repeat' split
  · exact .inr (List.length_append ..)
  · exact .inl rfl
  · exact .inl rfl

/-- After two moves there is no owed refusal left or no free place (R162). -/
theorem moveOwed_moveAllOwed (m : Channel) : moveOwed (moveAllOwed m) = moveAllOwed m := by
  rcases moveOwed_cases m with h | h
  · rw [moveAllOwed, h, h, h]
  · rcases moveOwed_cases (moveOwed m) with h' | h'
    · rw [moveAllOwed, h', h']
    · refine moveOwed_of_full ?_
      rw [moveAllOwed, h', h]
      exact Nat.le_add_left ..

theorem moveAllOwed_moveAllOwed (m : Channel) : moveAllOwed (moveAllOwed m) = moveAllOwed m := by
  rw [moveAllOwed, moveOwed_moveAllOwed, moveOwed_moveAllOwed]

theorem takeOrder_of_cannot {m : Channel} (h : canTake m = false) : takeOrder m = m := by
  unfold takeOrder
  split
  · rename_i o rest horu hbuffer
    rw [canTake, horu, hbuffer] at h
    rw [if_neg (by simpa using h)]
  · rfl

/-- Once the owed refusals have moved, ORDER_TAKEN takes the order that can be taken (R163). -/
theorem takeNextOrder_moved (m : Channel) : takeNextOrder (moveAllOwed m) = takeOrder (moveAllOwed m) := by
  unfold takeNextOrder
  rw [moveAllOwed_moveAllOwed]
  split
  · rfl
  · rename_i h
    exact (takeOrder_of_cannot (Bool.not_eq_true _ ▸ h)).symm

theorem immediate_channel (m : Channel) :
    takeNextOrder (moveOwed (moveOwed (takeAbandoned (takeMessage m)))) = catchUpChannel m := by
  rw [takeAbandoned_takeMessage]
  exact takeNextOrder_moved (handOnParsed m)

/-! ### The commands one after another -/

theorem runAll_enterHangs (ps : List Port) (rest : List Instr) (s : State) :
    runAll (ps.map Instr.enterHang ++ rest) s =
      runAll rest { s with live := ps.foldl (enterHangNow s.cfg) s.live } := by
  induction ps generalizing s with
  | nil => rfl
  | cons p ps ih => exact ih { s with live := enterHangNow s.cfg s.live p }

theorem runAll_cadenceCountEnd (is : List Instr) (s : State) :
    runAll (.cadenceCountEnd :: is) s = runAll is { s with live := endCadence s.cfg s.live } := rfl

theorem runAll_messageComplete (is : List Instr) (s : State) :
    runAll (.messageComplete :: is) s = runAll is { s with mci := takeMessage s.mci } := rfl

theorem runAll_messageAbandoned (is : List Instr) (s : State) :
    runAll (.messageAbandoned :: is) s = runAll is { s with mci := takeAbandoned s.mci } := rfl

theorem runAll_owedRefusal (is : List Instr) (s : State) :
    runAll (.owedRefusal :: is) s = runAll is { s with mci := moveOwed s.mci } := rfl

theorem runAll_orderTaken (is : List Instr) (s : State) :
    runAll (.orderTaken :: is) s = runAll is { s with mci := takeNextOrder s.mci } := rfl

/-- Settles O3: the entries into HANG port by port, then the cadence, then the channel's steps in turn. -/
theorem catchingUpIsTheImmediateSteps : Obligations.CatchingUpIsTheImmediateSteps := by
  intro s
  have hlive : allPorts.foldl (enterHangNow s.cfg) s.live = enterHangs s.cfg s.live := rfl
  rw [runAll_enterHangs, hlive, runAll_cadenceCountEnd, runAll_messageComplete, runAll_messageAbandoned,
    runAll_owedRefusal, runAll_owedRefusal, runAll_orderTaken, runAll, catchUp, catchUpLive, ← immediate_channel]

end Sys2Proof.ImmediateSteps

/-! SUPPORT. READ RING (R79). -/

namespace Sys2Proof.RingReading

open Sys2Proof.Machine Sys2Proof.Claims Sys2Proof.Carrying

theorem boolByte_writerActive (l : Live) (q : Patch) :
    boolByte (writerActive l q) = if (ctxOf l q).floor ≠ [] ∨ (ctxOf l q).source = .alert then 1 else 0 := by
  simp [boolByte, writerActive]

theorem guestOf_iff (l : Live) (p : Port) (q : Patch) : guestOf l p q = true ↔ 16 ≤ p.val ∧ l.guestHolder = some q := by
  simp [guestOf, isConsole]

/-- A reader's entry: port, transmit state with the guest bit, and the lag of its cursor (R79). -/
theorem readerEntry_of_reads {l : Live} {q : Patch} {p : Port} (h : reads l p q = true) :
    readerEntry l q p =
      [BitVec.ofNat 8 p.val,
       txByte (look l.tx p).state ||| (if 16 ≤ p.val ∧ l.guestHolder = some q then 0x80 else 0)] ++
      twoBytes (match (look l.tx p).reader with
        | some r => ((look l.rings r.ring).head - r.cursor).toNat
        | none => 0) := by
  have hkeyed : keyed (look l.tx p) = true := (Bool.and_eq_true_iff.1 h).1
  rcases hr : (look l.tx p).reader with _ | r <;> simp [readerEntry, guestOf_iff, lagOf, hr, hkeyed, natByte]

theorem orderReadRing_good (q : Patch) (c : Settings) (l : Live) :
    orderReadRing [BitVec.ofNat 8 q.val] c l = answer c l
      ([BitVec.ofNat 8 q.val, boolByte (writerActive l q)] ++ twoBytes (look l.rings q).head.toNat ++
        [BitVec.ofNat 8 (readersOf l q).length] ++ (readersOf l q).flatMap (readerEntry l q)) := by
  have h0 : byteAt [BitVec.ofNat 8 q.val] 0 = (BitVec.ofNat 8 q.val).toNat := rfl
  unfold orderReadRing
  rw [if_neg (by simp), h0, readPatchNumber_val]
  rfl

theorem orderReadRing_bad {b : Byte} (h : 7 < b.toNat) (c : Settings) (l : Live) :
    orderReadRing [b] c l = refuse .range c l := by
  have h0 : byteAt [b] 0 = b.toNat := rfl
  unfold orderReadRing
  rw [if_neg (by simp), h0, readPatchNumber_none h]

/-- The entries of the readers, in order of port number. -/
theorem flatMap_readerEntry (l : Live) (q : Patch) :
    (readersOf l q).flatMap (readerEntry l q) =
      (readersOf l q).flatMap (fun p =>
        [BitVec.ofNat 8 p.val,
         txByte (look l.tx p).state ||| (if 16 ≤ p.val ∧ l.guestHolder = some q then 0x80 else 0)] ++
        twoBytes (match (look l.tx p).reader with
          | some r => ((look l.rings r.ring).head - r.cursor).toNat
          | none => 0)) :=
  List.flatMap_congr fun _ hp => readerEntry_of_reads (List.mem_filter.1 hp).2

/-- Settles O21: the order reads the writer, the head and the readers of the ring as they stand. -/
theorem readRingListsTheReaders : Obligations.ReadRingListsTheReaders := by
  refine ⟨fun q s h => ?_, fun b s hbad h => ?_⟩
  · show Host.Outcome.next (carryOut 0x70 _ _ s) = _
    rw [carryOut_of_holds _ h, orderReadRing_good, ← catchUp_cfg s, answered_answer, flatMap_readerEntry,
      boolByte_writerActive]
    generalize catchUp s = u
    rfl
  · show Host.Outcome.next (carryOut 0x70 _ _ s) = _
    rw [carryOut_refuses h (orderReadRing_bad hbad _ _)]
    rfl

end Sys2Proof.RingReading

/-! SUPPORT. The outbound timeslots that a pulse forms (R173, R174). -/

namespace Sys2Proof.OutboundSlots

open Sys2Proof.Machine Sys2Proof.Claims Sys2Proof.Resets

/-! ### Bits of a byte -/

theorem getLsbD_powerOfTwo {k : Nat} (hk : k < 8) (n : Nat) :
    ((1 <<< k : Nat) : Byte).getLsbD n = decide (n = k) := by
  rw [BitVec.natCast_eq_ofNat, BitVec.getLsbD_ofNat, Nat.one_shiftLeft, Nat.testBit_two_pow, Bool.eq_iff_iff]
  simp only [Bool.and_eq_true, decide_eq_true_eq]
  omega

/-- The bits of a byte that are set one by one, below bit `k`. -/
theorem getLsbD_setBits (f : Nat → Bool) (n : Nat) {k : Nat} (hk : k ≤ 8) :
    ((List.range k).foldl (fun b n => if f n then b ||| (1 <<< n : Byte) else b) 0).getLsbD n =
      (decide (n < k) && f n) := by
  induction k with
  | zero => simp
  | succ k ih =>
    have hbelow := ih (by omega)
    rw [List.range_succ, List.foldl_append, List.foldl_cons, List.foldl_nil]
    by_cases hn : n = k
    · subst hn
      split
      · rename_i hf
        rw [BitVec.getLsbD_or, getLsbD_powerOfTwo (by omega), hf]
        simp
      · rename_i hf
        rw [hbelow, Bool.eq_false_iff.2 hf]
        simp
    · have hlt : n < k + 1 ↔ n < k := by omega
      split
      · rw [BitVec.getLsbD_or, hbelow, getLsbD_powerOfTwo (by omega), decide_eq_false hn, Bool.or_false, decide_eq_decide.2 hlt]
      · rw [hbelow, decide_eq_decide.2 hlt]

/-- The bits of a byte are those it was made of. -/
theorem getLsbD_bitsByte (f : Nat → Bool) (n : Nat) : (bitsByte f).getLsbD n = (decide (n < 8) && f n) :=
  getLsbD_setBits f n (Nat.le_refl 8)

theorem portBit_val (v : Vector Bool 18) (p : Port) : portBit v p.val = look v p := by
  rw [Bool.eq_iff_iff, portBit, List.any_eq_true]
  constructor
  · rintro ⟨x, -, hx⟩
    simp only [Bool.and_eq_true, beq_iff_eq] at hx
    exact Fin.ext hx.1 ▸ hx.2
  · intro h
    exact ⟨p, mem_allPorts p, by simp [h]⟩

theorem portBit_beyond (v : Vector Bool 18) {n : Nat} (hn : 18 ≤ n) : portBit v n = false := by
  rw [Bool.eq_false_iff, portBit, ne_eq, List.any_eq_true]
  rintro ⟨x, -, hx⟩
  simp only [Bool.and_eq_true, beq_iff_eq] at hx
  omega

/-! ### The timeslots of the slot map -/

theorem slot_sample_high (o : Outbound) (p : Port) :
    o.slot (2 * p.val) = some ((look o.samples p).extractLsb' 8 8) := by
  have hp : (⟨2 * p.val / 2, by omega⟩ : Port) = p := Fin.ext (by simp)
  rw [Outbound.slot, dif_pos (by omega)]
  dsimp only
  rw [if_pos (by omega), hp]
  rfl

theorem slot_sample_low (o : Outbound) (p : Port) :
    o.slot (2 * p.val + 1) = some ((look o.samples p).extractLsb' 0 8) := by
  have hp : (⟨(2 * p.val + 1) / 2, by omega⟩ : Port) = p := Fin.ext (by show (2 * p.val + 1) / 2 = p.val; omega)
  rw [Outbound.slot, dif_pos (by omega)]
  dsimp only
  rw [if_neg (by omega), hp]
  rfl

/-- The bit of port `base + n` in a timeslot of eight ports. -/
theorem getLsbD_portByte (v : Vector Bool 18) (base : Nat) {p : Port} (hlow : base ≤ p.val) (hhigh : p.val < base + 8) :
    (bitsByte (fun n => portBit v (base + n))).getLsbD (p.val - base) = look v p := by
  have hp : base + (p.val - base) = p.val := by omega
  rw [getLsbD_bitsByte, hp, portBit_val, decide_eq_true (by omega), Bool.true_and]

theorem slot_beyond (o : Outbound) {k : Nat} (hk : 44 ≤ k) : o.slot k = none := by
  unfold Outbound.slot
  rw [dif_neg (by omega)]
  repeat rw [if_neg (by omega)]

/-! ### The pulse -/

/-- What a pulse that begins a frame drives: the slots that the state after the arrival forms, or those of the frame before
where no frame has arrived (R173). -/
theorem pulse_out {s t : State} (hp : s.hwi.phase ≠ .running) (h : Answers .hfsPulse s t) :
    t.hwi.out = (formOutbound (settleFrame s)).hwi.out ∧ t.hwi.phase = .running := by
  injection h with e
  subst e
  generalize formOutbound (settleFrame s) = u
  cases hphase : s.hwi.phase with
  | waiting => exact ⟨rfl, rfl⟩
  | arrived => exact ⟨rfl, rfl⟩
  | running => exact absurd hphase hp

theorem hdo_of_running {t : State} (h : t.hwi.phase = .running) (k : Nat) : t.hdo k = t.hwi.out.slot k := by
  rw [State.hdo, h]

theorem look_formed_samples (u : State) (p : Port) :
    look (formedSlots u).samples p = if (look u.live.tx p).state = .onAir then (look u.live.tx p).sample else 0 := by
  simp only [formedSlots, look_mapTable]

theorem look_formed_keys (u : State) (p : Port) : look (formedSlots u).keys p = keyed (look u.live.tx p) := by
  simp only [formedSlots, look_mapTable]

/-- The timeslot of the console ports' bits beside RTR (R160, R174). -/
theorem getLsbD_rtrByte (v : Vector Bool 18) (rtr : Bool) (n : Nat) :
    (bitsByte (fun n => if n = 2 then rtr else n < 2 && portBit v (16 + n))).getLsbD n =
      if n = 2 then rtr else decide (n < 2) && portBit v (16 + n) := by
  rw [getLsbD_bitsByte]
  by_cases h2 : n = 2
  · simp [h2]
  · by_cases hlt : n < 2
    · simp [h2, hlt, show n < 8 by omega]
    · simp [h2, hlt]

/-- The key bits, lamps and RTR that a pulse forms, by timeslot (R101, R160, R174). -/
theorem formed_bits (u : State) :
    let o := formedSlots u
    ∃ a b d e f g : Byte, o.slot 36 = some a ∧ o.slot 37 = some b ∧ o.slot 38 = some d ∧ o.slot 39 = some e ∧
      o.slot 40 = some f ∧ o.slot 41 = some g ∧
      (∀ p : Port, p.val < 8 → a.getLsbD p.val = keyed (look u.live.tx p) ∧ e.getLsbD p.val = look u.live.lamps p) ∧
      (∀ p : Port, 8 ≤ p.val → p.val < 16 → b.getLsbD (p.val - 8) = keyed (look u.live.tx p) ∧
        f.getLsbD (p.val - 8) = look u.live.lamps p) ∧
      (∀ p : Port, 16 ≤ p.val → d.getLsbD (p.val - 16) = keyed (look u.live.tx p) ∧
        g.getLsbD (p.val - 16) = look u.live.lamps p) ∧
      d.getLsbD 2 = u.rtr ∧ (∀ n : Nat, 3 ≤ n → d.getLsbD n = false) ∧ ∀ n : Nat, 2 ≤ n → g.getLsbD n = false := by
  intro o
  refine ⟨_, _, _, _, _, _, rfl, rfl, rfl, rfl, rfl, rfl, fun p hp => ?low, fun p hlow hhigh => ?high, fun p hp => ?console,
    getLsbD_rtrByte _ _ 2, fun n hn => ?rest, fun n hn => ?unused⟩
  case low =>
    have hkey := getLsbD_portByte o.keys 0 (Nat.zero_le p.val) (by omega)
    have hlamp := getLsbD_portByte o.lamps 0 (Nat.zero_le p.val) (by omega)
    simp only [Nat.zero_add, Nat.sub_zero] at hkey hlamp
    exact ⟨hkey.trans (look_formed_keys u p), hlamp⟩
  case high =>
    exact ⟨(getLsbD_portByte o.keys 8 hlow hhigh).trans (look_formed_keys u p), getLsbD_portByte o.lamps 8 hlow hhigh⟩
  case console =>
    have hval : 16 + (p.val - 16) = p.val := by omega
    refine ⟨?_, getLsbD_portByte o.lamps 16 hp (by omega)⟩
    rw [getLsbD_rtrByte, if_neg (by omega), hval, portBit_val, look_formed_keys, decide_eq_true (by omega), Bool.true_and]
  case rest => rw [getLsbD_rtrByte, if_neg (by omega), decide_eq_false (by omega), Bool.false_and]
  case unused => rw [getLsbD_bitsByte, portBit_beyond _ (by omega), Bool.and_false]

/-- Settles O11: the slots that the state after the arrival forms, timeslot by timeslot. -/
theorem outboundSlotsShowTheState : Obligations.OutboundSlotsShowTheState := by
  refine ⟨fun s t hp hdue h => ?formed, fun s t hp hdue h => ?again⟩
  case formed =>
    intro u
    obtain ⟨hout, hphase⟩ := pulse_out hp h
    have hform : t.hwi.out = formedSlots u := by
      rw [hout, formOutbound, (fixedPart_fields (settleFrame_fixed s)).2.1, hdue]
      rfl
    clear_value u
    simp only [hdo_of_running hphase, hform]
    refine ⟨fun p => ?_, formed_bits u, rfl, rfl, fun k hk => slot_beyond _ hk⟩
    rw [slot_sample_high, slot_sample_low, look_formed_samples]
    exact ⟨rfl, rfl⟩
  case again =>
    obtain ⟨hsame, hform, -⟩ := fixedPart_fields (settleFrame_fixed s)
    rw [(pulse_out hp h).1, formOutbound, hform, hdue]
    exact hsame

end Sys2Proof.OutboundSlots

/-! SUPPORT. The ring work of a frame (R60 to R64, R69, R71, R84 to R87, R94): what the service and drop-oldest make of each
port, what an append makes of a ring, and all of it together. -/

namespace Sys2Proof.RingWork

open Sys2Proof.Machine Sys2Proof.Safety Sys2Proof.Claims Sys2Proof.SoundSteps Sys2Proof.Keying

/-! ### Work done port by port -/

theorem raiseIf_eq (b : Bool) (src : Source) (e : Cond) (l : Live) :
    raiseIf b src e l = { l with raised := l.raised ++ if b then [(src, e)] else [] } := by
  unfold raiseIf
  cases b <;> simp [Live.raise]

/-- An operation does one port's work: whatever the machines of the others and the conditions raised, it makes of the port's
transmit machine what `T` says, and raises `e` on the port where `B` says so. -/
def PortWork (f : Live → Port → Live) (l : Live) (T : Port → TxPort → TxPort) (B : Port → TxPort → Bool) (e : Cond) :
    Prop :=
  ∀ (x : Vector TxPort 18) (es : List (Source × Cond)) (p : Port),
    f { l with tx := x, raised := es } p =
      { l with
        tx := put x p (T p (look x p))
        raised := es ++ if B p (look x p) then [(portSource p, e)] else [] }

/-- The condition `e` on each port of a list on which `b` has it raised. -/
def raisedOn (e : Cond) (b : Port → Bool) (ps : List Port) : List (Source × Cond) :=
  (ps.filter b).map fun p => (portSource p, e)

theorem raisedOn_cons (e : Cond) (b : Port → Bool) (p : Port) (ps : List Port) :
    raisedOn e b (p :: ps) = (if b p then [(portSource p, e)] else []) ++ raisedOn e b ps := by
  unfold raisedOn
  cases h : b p <;> simp [h]

theorem raisedOn_congr {e : Cond} {b b' : Port → Bool} {ps : List Port} (h : ∀ p ∈ ps, b p = b' p) :
    raisedOn e b ps = raisedOn e b' ps := by
  rw [raisedOn, List.filter_congr h, raisedOn]

theorem mem_raisedOn {e : Cond} {b : Port → Bool} {p : Port} (h : b p = true) :
    (portSource p, e) ∈ raisedOn e b allPorts :=
  List.mem_map.2 ⟨p, List.mem_filter.2 ⟨mem_allPorts p, h⟩, rfl⟩

theorem PortWork.foldl {f : Live → Port → Live} {l : Live} {T : Port → TxPort → TxPort} {B : Port → TxPort → Bool}
    {e : Cond} (h : PortWork f l T B e) (ps : List Port) (hps : ps.Nodup) (x : Vector TxPort 18)
    (es : List (Source × Cond)) :
    ps.foldl f { l with tx := x, raised := es } =
      { l with
        tx := mapTable (fun p t => if p ∈ ps then T p t else t) x
        raised := es ++ raisedOn e (fun p => B p (look x p)) ps } := by
  induction ps generalizing x es with
  | nil =>
    have hx : mapTable (fun _ t => t) x = x := table_ext fun p => look_mapTable ..
    simp [hx, raisedOn]
  | cons p ps ih =>
    obtain ⟨hp, hnodup⟩ := List.nodup_cons.1 hps
    rw [List.foldl_cons, h, ih hnodup, raisedOn_cons, List.append_assoc]
    have hother : ∀ r ∈ ps, look (put x p (T p (look x p))) r = look x r :=
      fun r hr => look_put_ne _ _ _ _ fun he => hp (he ▸ hr)
    rw [raisedOn_congr fun r hr => by rw [hother r hr]]
    simp only [Live.mk.injEq, true_and, and_true]
    refine table_ext fun r => ?_
    simp only [look_mapTable, look_put, List.mem_cons]
    by_cases hr : r = p
    · subst hr
      simp [hp]
    · simp [hr]

/-- The work of all ports: each machine as `T` has it, and `e` raised on the ports that `B` names, in ascending number. -/
theorem PortWork.allPorts {f : Live → Port → Live} {l : Live} {T : Port → TxPort → TxPort} {B : Port → TxPort → Bool}
    {e : Cond} (h : PortWork f l T B e) (x : Vector TxPort 18) (es : List (Source × Cond)) :
    Machine.allPorts.foldl f { l with tx := x, raised := es } =
      { l with tx := mapTable T x, raised := es ++ raisedOn e (fun p => B p (look x p)) Machine.allPorts } := by
  have hfold := h.foldl Machine.allPorts allPorts_nodup x es
  simp only [mem_allPorts, if_true] at hfold
  exact hfold

/-! ### Serving readers -/

/-- A machine whose key-up has expired is ON_AIR (R68). -/
def keyedUp (t : TxPort) : TxPort :=
  if t.state = .keying ∧ t.keyUp = some 0 then { t with state := .onAir, keyUp := none } else t

theorem keyUpDone_eq (l : Live) (p : Port) : keyUpDone l p = l.setTx p (keyedUp (look l.tx p)) := by
  unfold keyUpDone keyedUp expired
  by_cases h : (look l.tx p).state = .keying ∧ (look l.tx p).keyUp = some 0
  · simp [h]
  · rw [if_neg h, if_neg (by simpa using h), Live.setTx, put_look]

/-- The sample that a reader takes, scaled by its output gain, and whether it clips (R69, R87). -/
def takenSample (c : Settings) (l : Live) (p : Port) (r : Reader) : Sample × Bool :=
  stage [(outputGain c l p r.ring, (look l.rings r.ring).store.read (ringPosition r.cursor))]

/-- A transmit machine served (R66, R69, R71). -/
def served (c : Settings) (l : Live) (p : Port) (t : TxPort) : TxPort :=
  if t.state = .onAir then
    match t.reader with
    | some r =>
      if hasSample (look l.rings r.ring) r then
        { t with
          reader := some { r with cursor := r.cursor + 1 }, hangDue := false, sample := (takenSample c l p r).1 }
      else { t with hangDue := !writerActive l r.ring || !entitled c l p r.ring, sample := 0 }
    | none => { t with hangDue := false, sample := 0 }
  else { t with hangDue := false, sample := 0 }

/-- A port takes a sample that clips (R87). -/
def clips (c : Settings) (l : Live) (p : Port) (t : TxPort) : Bool :=
  decide (t.state = .onAir) && t.reader.any fun r => hasSample (look l.rings r.ring) r && (takenSample c l p r).2

theorem servePort_eq (c : Settings) (l : Live) (p : Port) :
    servePort c l p =
      raiseIf (clips c l p (look l.tx p)) (portSource p) .clip (l.setTx p (served c l p (look l.tx p))) := by
  unfold servePort served clips takeSample
  generalize look l.tx p = t
  obtain ⟨state, reader, keyUp, hang, confirm, hangDue, sample⟩ := t
  by_cases hs : state = .onAir
  · rcases reader with _ | r
    · simp [hs, raiseIf]
    · by_cases hsample : hasSample (look l.rings r.ring) r = true
      · simp [hs, hsample, takenSample]
      · simp [hs, hsample, raiseIf]
  · simp [hs, raiseIf]

theorem servePort_work (c : Settings) (l : Live) : PortWork (servePort c) l (served c l) (clips c l) .clip := by
  intro x es p
  rw [servePort_eq, raiseIf_eq]
  rfl

theorem keyUpDone_work (l : Live) : PortWork keyUpDone l (fun _ => keyedUp) (fun _ _ => false) .clip := by
  intro x es p
  rw [keyUpDone_eq]
  simp [Live.setTx]

theorem served_of_not_onAir {c : Settings} {l : Live} {p : Port} {t : TxPort} (h : t.state ≠ .onAir) :
    served c l p t = { t with hangDue := false, sample := 0 } := if_neg h

/-- A reader has nothing to take: it stands at the head or at its end mark (R69, R70). -/
theorem hasSample_false_iff {ring : Ring} {r : Reader} :
    hasSample ring r = false ↔ r.cursor = ring.head ∨ r.endMark = some r.cursor := by
  simp only [hasSample, Bool.and_eq_false_iff, decide_eq_false_iff_not, ne_eq, not_not]

theorem hasSample_of_ne {ring : Ring} {r : Reader} (hhead : r.cursor ≠ ring.head) (hend : r.endMark ≠ some r.cursor) :
    hasSample ring r = true := by
  rw [← Bool.not_eq_false, hasSample_false_iff]
  exact fun h => h.elim hhead hend

section

variable {c : Settings} {l : Live} {p : Port} {t : TxPort} {r : Reader} (hs : t.state = .onAir) (hr : t.reader = some r)
include hs hr

theorem served_waiting (h : r.cursor = (look l.rings r.ring).head ∨ r.endMark = some r.cursor) :
    served c l p t = { t with hangDue := !writerActive l r.ring || !entitled c l p r.ring, sample := 0 } := by
  simp [served, hs, hr, hasSample_false_iff.2 h]

theorem served_taking (hhead : r.cursor ≠ (look l.rings r.ring).head) (hend : r.endMark ≠ some r.cursor) :
    served c l p t =
      { t with reader := some { r with cursor := r.cursor + 1 }, hangDue := false, sample := (takenSample c l p r).1 } := by
  simp [served, hs, hr, hasSample_of_ne hhead hend]

omit hs in
theorem clips_waiting (h : r.cursor = (look l.rings r.ring).head ∨ r.endMark = some r.cursor) :
    clips c l p t = false := by
  simp [clips, hr, hasSample_false_iff.2 h]

theorem clips_taking (hhead : r.cursor ≠ (look l.rings r.ring).head) (hend : r.endMark ≠ some r.cursor) :
    clips c l p t = (takenSample c l p r).2 := by
  simp [clips, hs, hr, hasSample_of_ne hhead hend]

end

theorem clips_of_not_onAir {c : Settings} {l : Live} {p : Port} {t : TxPort} (h : t.state ≠ .onAir) :
    clips c l p t = false := by
  simp [clips, h]

/-- The output gain: 64 as a guest, else the member's (R69, R87). -/
theorem outputGain_eq (c : Settings) (l : Live) (p : Port) (q : Patch) :
    outputGain c l p q = if 16 ≤ p.val ∧ l.guestHolder = some q then 64
      else match memberIn c l q p with
        | some m => m.outGain
        | none => 64 := by
  simp only [outputGain, RingReading.guestOf_iff]
  rfl

/-! ### Appending -/

/-- A reader of the ring of `q` whose head is `head`, at lag 4096 (R64). -/
abbrev Crowded (head : Count) (q : Patch) (t : TxPort) (r : Reader) : Prop :=
  keyed t = true ∧ r.ring = q ∧ (head - r.cursor).toNat = 4096

/-- A reader makes room for a sample where its ring is full (R64). -/
def madeRoom (head : Count) (q : Patch) (t : TxPort) : TxPort :=
  match t.reader with
  | some r => if Crowded head q t r then { t with reader := some (dropped r) } else t
  | none => t

/-- A reader of the ring of `q` loses a sample that it was to send (R64). -/
def losesSample (head : Count) (q : Patch) (t : TxPort) : Bool :=
  (keyed t && t.reader.any (fun r => r.ring = q)) &&
    t.reader.any (fun r => decide ((head - r.cursor).toNat = 4096 ∧ r.endMark ≠ some r.cursor))

theorem madeRoom_of_none {head : Count} {q : Patch} {t : TxPort} (hr : t.reader = none) : madeRoom head q t = t := by
  rw [madeRoom, hr]

theorem madeRoom_of_reader {head : Count} {q : Patch} {t : TxPort} {r : Reader} (hr : t.reader = some r) :
    madeRoom head q t = if Crowded head q t r then { t with reader := some (dropped r) } else t := by
  rw [madeRoom, hr]

theorem losesSample_of_none {head : Count} {q : Patch} {t : TxPort} (hr : t.reader = none) :
    losesSample head q t = false := by
  rw [losesSample, hr, Option.any_none, Option.any_none, Bool.and_false]

theorem losesSample_iff {head : Count} {q : Patch} {t : TxPort} {r : Reader} (hr : t.reader = some r) :
    losesSample head q t = true ↔ Crowded head q t r ∧ r.endMark ≠ some r.cursor := by
  rw [losesSample, hr]
  simp only [Option.any_some, Bool.and_eq_true, decide_eq_true_eq, Crowded, and_assoc]

theorem dropOldest_of_none {q : Patch} {l : Live} {p : Port} (hr : (look l.tx p).reader = none) :
    dropOldest q l p = l := by
  unfold dropOldest
  dsimp only
  split
  · rename_i r h
    exact absurd (hr.symm.trans h) (by simp)
  · rfl

theorem crowded_iff {q : Patch} {l : Live} {p : Port} {r : Reader} (hr : (look l.tx p).reader = some r) :
    (reads l p q && decide (lagOf l p = Config.ringSize)) = true ↔
      Crowded (look l.rings q).head q (look l.tx p) r := by
  rw [Bool.and_eq_true, decide_eq_true_eq, reads_iff, hr]
  constructor
  · rintro ⟨⟨hk, _, ⟨⟩, rfl⟩, hlag⟩
    exact ⟨hk, rfl, (lagOf_of_reads hk hr).symm.trans hlag⟩
  · rintro ⟨hk, rfl, hfull⟩
    exact ⟨⟨hk, r, rfl, rfl⟩, (lagOf_of_reads hk hr).trans hfull⟩

/-- What drop-oldest makes of a port: its oldest sample goes where the ring is full, and LAGLOSS is raised unless it stood
at its end mark (R64). -/
theorem dropOldest_eq (q : Patch) (l : Live) (p : Port) :
    dropOldest q l p =
      raiseIf (losesSample (look l.rings q).head q (look l.tx p)) (portSource p) .lagloss
        (l.setTx p (madeRoom (look l.rings q).head q (look l.tx p))) := by
  cases hr : (look l.tx p).reader with
  | none =>
    rw [dropOldest_of_none hr, losesSample_of_none hr, madeRoom_of_none hr, ResetOrders.setTx_same rfl]
    rfl
  | some r =>
    rw [madeRoom_of_reader hr]
    unfold dropOldest raiseIf
    dsimp only
    split
    · rename_i z hz
      obtain rfl := Option.some.inj (hr.symm.trans hz)
      by_cases hc : Crowded (look l.rings q).head q (look l.tx p) r
      · rw [if_pos ((crowded_iff hr).2 hc), if_pos hc]
        by_cases hend : r.endMark = some r.cursor
        · rw [if_pos hend, if_neg fun h => ((losesSample_iff hr).1 h).2 hend, dropped, if_pos hend]
        · rw [if_neg hend, if_pos ((losesSample_iff hr).2 ⟨hc, hend⟩), dropped, if_neg hend]
      · rw [if_neg fun h => hc ((crowded_iff hr).1 h), if_neg hc, if_neg fun h => hc ((losesSample_iff hr).1 h).1,
          ResetOrders.setTx_same rfl]
    · rename_i hz
      exact absurd (hr.symm.trans hz) (by simp)

theorem dropOldest_work (l : Live) (q : Patch) :
    PortWork (dropOldest q) l (fun _ => madeRoom (look l.rings q).head q)
      (fun _ => losesSample (look l.rings q).head q) .lagloss := by
  intro x es p
  rw [dropOldest_eq, raiseIf_eq]
  rfl

/-- The sample that a ring gets, and whether it clipped: the alert sample under alert, else its patch sample (R84, R94). -/
def madeSample (c : Settings) (received : Vector Sample 18) (alert : Sample × Bool) (l : Live) (q : Patch) :
    Sample × Bool :=
  if underAlert l q then alert else patchSample c l received q

/-- The conditions that an append to a ring raises (R64, R86). -/
def appendRaises (c : Settings) (received : Vector Sample 18) (alert : Sample × Bool) (l : Live) (q : Patch) :
    List (Source × Cond) :=
  raisedOn .lagloss (fun p => losesSample (look l.rings q).head q (look l.tx p)) allPorts ++
    if (madeSample c received alert l q).2 then [(patchSource q, .mixclip)] else []

theorem appendRing_idle {c : Settings} {received : Vector Sample 18} {alert : Sample × Bool} {l : Live} {q : Patch}
    (h : writerActive l q = false) : appendRing c received alert l q = l := by
  unfold appendRing
  rw [h]
  rfl

/-- An append to a ring with an active writer (R62, R64, R86). -/
theorem appendRing_active {c : Settings} {received : Vector Sample 18} {alert : Sample × Bool} {l : Live} {q : Patch}
    (h : writerActive l q = true) :
    appendRing c received alert l q =
      { l with
        rings := put l.rings q (pushSample (look l.rings q) (madeSample c received alert l q).1)
        tx := mapTable (fun _ => madeRoom (look l.rings q).head q) l.tx
        raised := l.raised ++ appendRaises c received alert l q } := by
  have hdropped : allPorts.foldl (dropOldest q) l = _ := (dropOldest_work l q).allPorts l.tx l.raised
  unfold appendRing
  dsimp only
  rw [if_pos h, hdropped, raiseIf_eq]
  simp only [Live.setRing, List.append_assoc]
  rfl

theorem madeSample_eq (c : Settings) (received : Vector Sample 18) (alert : Sample × Bool) (l : Live) (q : Patch) :
    madeSample c received alert l q =
      if (ctxOf l q).source = .alert then alert
      else stage ((ctxOf l q).floor.filterMap fun p => (memberIn c l q p).map fun m => (m.inGain, look received p)) := by
  unfold madeSample underAlert
  by_cases h : (ctxOf l q).source = .alert
  · rw [if_pos h, if_pos (decide_eq_true h)]
  · rw [if_neg h, if_neg (by simpa using h)]
    rfl

/-! ### A ring with a sample more, and its readers -/

theorem pushSample_read_head {ring : Ring} (s : Sample) (hok : storeOk 4096 ring.store = true) :
    (pushSample ring s).store.read (ring.head.toNat % 4096) = s := by
  have hwf : Memory.wf ring.store = true := (Bool.and_eq_true_iff.1 hok).1
  exact (Memory.read_write _ _ _ s hwf).trans (if_pos rfl)

theorem pushSample_read_ne {ring : Ring} (s : Sample) (hok : storeOk 4096 ring.store = true) {n : Nat}
    (hn : n ≠ ring.head.toNat % 4096) : (pushSample ring s).store.read n = ring.store.read n := by
  have hwf : Memory.wf ring.store = true := (Bool.and_eq_true_iff.1 hok).1
  exact (Memory.read_write _ _ _ s hwf).trans (if_neg hn)

theorem madeRoom_of_not_crowded {head : Count} {q : Patch} {t : TxPort} (h : ∀ r, t.reader = some r → ¬ Crowded head q t r) :
    madeRoom head q t = t := by
  cases hr : t.reader with
  | none => exact madeRoom_of_none hr
  | some r => rw [madeRoom_of_reader hr, if_neg (h r hr)]

theorem madeRoom_of_not_reads (head : Count) {l : Live} {p : Port} {q : Patch} (h : reads l p q = false) :
    madeRoom head q (look l.tx p) = look l.tx p := by
  refine madeRoom_of_not_crowded fun r hr hc => ?_
  obtain ⟨hk, hq, -⟩ := hc
  rw [reads_iff.2 ⟨hk, r, hr, hq⟩] at h
  exact Bool.noConfusion h

/-- A reader of a ring is crowded exactly at lag 4096. -/
theorem crowded_of_reads {head : Count} {l : Live} {p : Port} {q : Patch} {r : Reader} (h : reads l p q = true)
    (hr : (look l.tx p).reader = some r) : Crowded head q (look l.tx p) r ↔ (head - r.cursor).toNat = 4096 := by
  obtain ⟨hk, z, hz, hq⟩ := reads_iff.1 h
  obtain rfl := Option.some.inj (hr.symm.trans hz)
  exact ⟨fun hc => hc.2.2, fun hfull => ⟨hk, hq, hfull⟩⟩

theorem alertTerms_eq (c : Settings) (l : Live) (received : Vector Sample 18) :
    alertTerms c l received =
      (if l.gen.phase = .on then [(c.cadence.toneGain, c.tone.read l.gen.pointer)] else []) ++
        (if (look l.rx 16).rx = .active then [(c.cadence.voiceGain, look received 16)] else []) := by
  have hvoice : rxActive l voicePort = true ↔ (look l.rx 16).rx = .active := decide_eq_true_iff
  simp only [alertTerms, hvoice]
  rfl

/-- Settles O52: what the service, drop-oldest and an append make of each port and each ring. -/
theorem ringWorkServesAndAppends : Obligations.RingWorkServesAndAppends := by
  refine ⟨fun c l p => ⟨fun hs => ?silent, fun r hs hr h => ?waiting, fun r hs hr hhead hend => ?taking⟩,
    fun c received alert l q h => appendRing_idle h, fun c received alert l q h hok => ?appended, alertTerms_eq⟩
  case silent =>
    rw [servePort_eq, clips_of_not_onAir hs, served_of_not_onAir hs]
    rfl
  case waiting =>
    rw [servePort_eq, clips_waiting hr h, served_waiting hs hr h]
    rfl
  case taking =>
    intro gain out
    have hout : takenSample c l p r = out := by
      rw [takenSample, outputGain_eq]
      rfl
    rw [servePort_eq, clips_taking hs hr hhead hend, served_taking hs hr hhead hend, hout, raiseIf_eq]
    exact ⟨look_put_same _ _ _, rfl⟩
  case appended =>
    intro t s head
    have ht : t = _ := appendRing_active h
    have hring : look t.rings q = pushSample (look l.rings q) s.1 := by
      rw [ht, madeSample_eq]
      exact look_put_same _ _ _
    have htx : ∀ p, look t.tx p = madeRoom head q (look l.tx p) := fun p => by
      rw [ht]
      exact look_mapTable _ _ _
    have hraised : t.raised = l.raised ++ raisedOn .lagloss (fun p => losesSample head q (look l.tx p)) allPorts ++
        (if s.2 then [(patchSource q, .mixclip)] else []) := by
      rw [ht, appendRaises, madeSample_eq, ← List.append_assoc]
    refine ⟨?head, ?read, fun n hn => ?readOther, fun r hr => ?others, fun hclip => ?mixclip, hraised, fun p hp => ?notReader,
      ?rest, fun p r hp hr => ⟨fun hroom => ?room, fun hfull hend => ⟨?loses, ?lagloss⟩, fun hfull hend => ?atEnd⟩⟩
    case head => rw [hring]; rfl
    case read => rw [hring]; exact pushSample_read_head s.1 hok
    case readOther => rw [hring]; exact pushSample_read_ne s.1 hok hn
    case others => rw [ht]; exact look_put_ne _ _ _ _ hr
    case mixclip => rw [hraised, if_pos hclip]; exact List.mem_append_right _ List.mem_cons_self
    case notReader => rw [htx, madeRoom_of_not_reads head hp]
    case rest => rw [ht]
    case room => rw [htx, madeRoom_of_reader hr, if_neg fun hc => hroom ((crowded_of_reads hp hr).1 hc)]
    case loses =>
      rw [htx, madeRoom_of_reader hr, if_pos ((crowded_of_reads hp hr).2 hfull), dropped, if_neg hend]
    case lagloss =>
      rw [hraised]
      refine List.mem_append_left _ (List.mem_append_right _ (mem_raisedOn ?_))
      exact (losesSample_iff hr).2 ⟨(crowded_of_reads hp hr).2 hfull, hend⟩
    case atEnd =>
      rw [htx, madeRoom_of_reader hr, if_pos ((crowded_of_reads hp hr).2 hfull), dropped, if_pos hend]

end Sys2Proof.RingWork

/-! SUPPORT. The ring work of a frame as a whole: service from the rings as they stood, then the appends, then the cadence. -/

namespace Sys2Proof.FrameRingWork

open Sys2Proof.Machine Sys2Proof.Safety Sys2Proof.Claims Sys2Proof.Deletions Sys2Proof.SwitchPlans Sys2Proof.RingWork

/-! ### All appends of a frame -/

/-- What the appends of a frame to the rings of some patches come to: one sample more in each ring with an active writer,
MIXCLIP raised where it clipped, and of a transmit machine at most its reader changed (R62, R64, R86). -/
structure Appended (c : Settings) (received : Vector Sample 18) (alert : Sample × Bool) (qs : List Patch) (l t : Live) :
    Prop where
  appended : ∀ q ∈ qs, writerActive l q = true →
    look t.rings q = pushSample (look l.rings q) (madeSample c received alert l q).1
  kept : ∀ q, q ∉ qs ∨ writerActive l q = false → look t.rings q = look l.rings q
  tx : ∀ p, look t.tx p = { look l.tx p with reader := (look t.tx p).reader }
  raised : ∀ e ∈ l.raised, e ∈ t.raised
  mixclip : ∀ q ∈ qs, writerActive l q = true → (madeSample c received alert l q).2 = true →
    (patchSource q, Cond.mixclip) ∈ t.raised
  rest : t = { l with rings := t.rings, tx := t.tx, raised := t.raised }

section

variable {c : Settings} {received : Vector Sample 18} {alert : Sample × Bool}

theorem Appended.nil (l : Live) : Appended c received alert [] l l where
  appended _ h := absurd h List.not_mem_nil
  kept _ _ := rfl
  tx _ := rfl
  raised _ h := h
  mixclip _ h := absurd h List.not_mem_nil
  rest := rfl

theorem madeRoom_eq (head : Count) (q : Patch) (t : TxPort) :
    madeRoom head q t = { t with reader := (madeRoom head q t).reader } := by
  unfold madeRoom
  repeat' split
  all_goals rfl

/-- One append, as a list of one. -/
theorem Appended.single (l : Live) (q : Patch) : Appended c received alert [q] l (appendRing c received alert l q) := by
  cases hw : writerActive l q with
  | false =>
    rw [appendRing_idle hw]
    have hnone : ∀ r ∈ [q], writerActive l r ≠ true := fun r hr => by
      rw [List.mem_singleton.1 hr, hw]
      decide
    exact ⟨fun r hr ha => absurd ha (hnone r hr), fun _ _ => rfl, fun _ => rfl, fun _ h => h,
      fun r hr ha => absurd ha (hnone r hr), rfl⟩
  | true =>
    rw [appendRing_active hw]
    refine ⟨fun r hr _ => ?_, fun r hr => ?_, fun p => ?_, fun e he => List.mem_append_left _ he, fun r hr _ hclip => ?_, rfl⟩
    · obtain rfl := List.mem_singleton.1 hr
      exact look_put_same _ _ _
    · refine look_put_ne _ _ _ _ fun he => ?_
      subst he
      rcases hr with hr | hr
      · exact hr List.mem_cons_self
      · rw [hw] at hr
        exact Bool.noConfusion hr
    · rw [look_mapTable]
      exact madeRoom_eq _ q _
    · obtain rfl := List.mem_singleton.1 hr
      refine List.mem_append_right _ ?_
      rw [appendRaises, if_pos hclip]
      exact List.mem_append_right _ List.mem_cons_self

/-- Appends to the rings of some patches leave the writers of all. -/
theorem Appended.writerActive {qs : List Patch} {l t : Live} (h : Appended c received alert qs l t) (q : Patch) :
    writerActive t q = writerActive l q := by rw [h.rest]; rfl

theorem Appended.madeSample {qs : List Patch} {l t : Live} (h : Appended c received alert qs l t) (q : Patch) :
    madeSample c received alert t q = madeSample c received alert l q := by rw [h.rest]; rfl

theorem Appended.cons {q : Patch} {qs : List Patch} {l m t : Live} (hq : q ∉ qs) (h : Appended c received alert [q] l m)
    (k : Appended c received alert qs m t) : Appended c received alert (q :: qs) l t where
  appended r hr ha := by
    rcases List.mem_cons.1 hr with rfl | hr
    · rw [k.kept r (.inl hq), h.appended r List.mem_cons_self ha]
    · rw [k.appended r hr ((h.writerActive r).trans ha), h.madeSample]
      rw [h.kept r (.inl fun he => hq (List.mem_singleton.1 he ▸ hr))]
  kept r hr := by
    rw [k.kept r, h.kept r]
    · exact hr.imp_left fun hmem he => hmem (List.mem_singleton.1 he ▸ List.mem_cons_self)
    · rw [h.writerActive]
      exact hr.imp_left fun hmem he => hmem (List.mem_cons_of_mem _ he)
  tx p := by rw [k.tx p, h.tx p]
  raised e he := k.raised e (h.raised e he)
  mixclip r hr ha hclip := by
    rcases List.mem_cons.1 hr with rfl | hr
    · exact k.raised _ (h.mixclip r List.mem_cons_self ha hclip)
    · exact k.mixclip r hr ((h.writerActive r).trans ha) (by rwa [h.madeSample])
  rest := by rw [k.rest, h.rest]

theorem Appended.foldl (qs : List Patch) (hqs : qs.Nodup) (l : Live) :
    Appended c received alert qs l (qs.foldl (appendRing c received alert) l) := by
  induction qs generalizing l with
  | nil => exact .nil l
  | cons q qs ih =>
    obtain ⟨hq, hnodup⟩ := List.nodup_cons.1 hqs
    exact (Appended.single l q).cons hq (ih hnodup _)

end

/-! ### The ring work -/

/-- The live state once every port has been served, key-up expiries due being taken first (R63, R66, R68, R69). -/
@[irreducible] def servedLive (c : Settings) (l : Live) : Live :=
  { l with
    tx := mapTable (fun p t => served c l p (keyedUp t)) l.tx
    raised := l.raised ++ raisedOn .clip (fun p => clips c l p (keyedUp (look l.tx p))) allPorts }

theorem servedLive_rest (c : Settings) (l : Live) :
    servedLive c l = { l with tx := (servedLive c l).tx, raised := (servedLive c l).raised } := by
  unfold servedLive
  rfl

theorem servedLive_tx (c : Settings) (l : Live) (p : Port) :
    look (servedLive c l).tx p = served c l p (keyedUp (look l.tx p)) := by
  simp only [servedLive, look_mapTable]

theorem servedLive_raised {c : Settings} {l : Live} {p : Port} (h : clips c l p (keyedUp (look l.tx p)) = true) :
    (portSource p, Cond.clip) ∈ (servedLive c l).raised := by
  unfold servedLive
  exact List.mem_append_right _ (mem_raisedOn h)

theorem writerActive_servedLive (c : Settings) (l : Live) (q : Patch) :
    writerActive (servedLive c l) q = writerActive l q := by
  rw [servedLive_rest]
  rfl

theorem madeSample_servedLive (c : Settings) (received : Vector Sample 18) (alert : Sample × Bool) (l : Live) (q : Patch) :
    madeSample c received alert (servedLive c l) q = madeSample c received alert l q := by
  rw [servedLive_rest]
  rfl

theorem alertSample_servedLive (c : Settings) (received : Vector Sample 18) (l : Live) :
    alertSample c (servedLive c l) received = alertSample c l received := by
  rw [servedLive_rest]
  rfl

theorem servedLive_rings (c : Settings) (l : Live) : (servedLive c l).rings = l.rings := by
  rw [servedLive_rest]

theorem serve_allPorts (c : Settings) (l : Live) :
    allPorts.foldl (servePort c) (allPorts.foldl keyUpDone l) = servedLive c l := by
  have hkeyed : allPorts.foldl keyUpDone l = _ := (keyUpDone_work l).allPorts l.tx l.raised
  rw [hkeyed, (servePort_work c l).allPorts]
  simp only [servedLive, Live.mk.injEq, true_and, look_mapTable]
  refine ⟨table_ext fun p => ?_, ?_⟩
  · rw [look_mapTable, look_mapTable, look_mapTable]
  · simp [raisedOn]

/-- The live state once the frame's samples have been appended, and before the cadence advances. -/
@[irreducible] def appendedLive (c : Settings) (received : Vector Sample 18) (l : Live) : Live :=
  allPatches.foldl (appendRing c received (alertSample c l received)) (servedLive c l)

theorem ringWork_eq (c : Settings) (received : Vector Sample 18) (l : Live) :
    ringWork c received l =
      recordRaised c { appendedLive c received l with gen := advanceCadence c.cadence (appendedLive c received l).gen } := by
  unfold ringWork
  dsimp only
  rw [serve_allPorts, alertSample_servedLive]
  unfold appendedLive
  rfl

theorem appendedLive_appended (c : Settings) (received : Vector Sample 18) (l : Live) :
    Appended c received (alertSample c l received) allPatches (servedLive c l) (appendedLive c received l) := by
  unfold appendedLive
  exact .foldl allPatches (by decide) _

theorem ringWork_rings (c : Settings) (received : Vector Sample 18) (l : Live) :
    (ringWork c received l).rings = (appendedLive c received l).rings := by
  rw [ringWork_eq, recordRaised_rings]

/-- What the ring work leaves of the live state beside rings, transmit machines and conditions: all but the cadence. -/
theorem ringWork_rest (c : Settings) (received : Vector Sample 18) (l : Live) :
    let t := ringWork c received l
    t.gen = advanceCadence c.cadence l.gen ∧ t.fla = l.fla ∧ t.rx = l.rx ∧ t.ovr = l.ovr ∧ t.switch = l.switch := by
  have ha := (appendedLive_appended c received l).rest
  rw [servedLive_rest] at ha
  intro t
  have ht : t = _ := ringWork_eq c received l
  rw [ht, recordRaised_gen, recordRaised_fla, recordRaised_rx, recordRaised_ovr, recordRaised_switch, ha]
  exact ⟨rfl, rfl, rfl, rfl, rfl⟩

/-- A condition that the ring work has raised stands after it (R145). -/
theorem stands_ringWork {c : Settings} {received : Vector Sample 18} {l : Live} {e : Source × Cond}
    (h : e ∈ (appendedLive c received l).raised) : Stands e (ringWork c received l) := by
  rw [ringWork_eq]
  exact stands_recordRaised c h

/-- The transmit machine of a port after the ring work: as it was served, but for its reader's place. -/
theorem ringWork_tx (c : Settings) (received : Vector Sample 18) (l : Live) (p : Port) :
    look (ringWork c received l).tx p =
      { served c l p (keyedUp (look l.tx p)) with reader := (look (ringWork c received l).tx p).reader } := by
  have htx : (ringWork c received l).tx = (appendedLive c received l).tx := by rw [ringWork_eq, recordRaised_tx]
  rw [htx, (appendedLive_appended c received l).tx p, servedLive_tx]

theorem stands_clip {c : Settings} (received : Vector Sample 18) {l : Live} {p : Port}
    (h : clips c l p (keyedUp (look l.tx p)) = true) : Stands (portSource p, Cond.clip) (ringWork c received l) :=
  stands_ringWork ((appendedLive_appended c received l).raised _ (servedLive_raised h))

/-! ### The machines that send -/

/-- A machine sends in this frame: it is ON_AIR, a key-up expiry due being taken first (R68; log entry 5). -/
def Sends (t : TxPort) : Prop := t.state = .onAir ∨ (t.state = .keying ∧ t.keyUp = some 0)

theorem keyedUp_of_sends {t : TxPort} (h : Sends t) : (keyedUp t).state = .onAir := by
  unfold keyedUp
  split
  · rfl
  · rename_i hk
    exact h.resolve_right hk

theorem served_state (c : Settings) (l : Live) (p : Port) (t : TxPort) : (served c l p t).state = t.state := by
  unfold served
  repeat' split
  all_goals rfl

theorem ringWork_state (c : Settings) (received : Vector Sample 18) (l : Live) (p : Port) :
    (look (ringWork c received l).tx p).state = (keyedUp (look l.tx p)).state := by
  rw [ringWork_tx]
  dsimp only
  rw [served_state]

theorem ringWork_sample (c : Settings) (received : Vector Sample 18) (l : Live) (p : Port) :
    (look (ringWork c received l).tx p).sample = (served c l p (keyedUp (look l.tx p))).sample := by
  rw [ringWork_tx]

theorem ringWork_hangDue (c : Settings) (received : Vector Sample 18) (l : Live) (p : Port) :
    (look (ringWork c received l).tx p).hangDue = (served c l p (keyedUp (look l.tx p))).hangDue := by
  rw [ringWork_tx]

theorem keyedUp_of_not_sends {t : TxPort} (h : ¬ Sends t) : keyedUp t = t := if_neg fun hk => h (.inr hk)

theorem keyedUp_reader (t : TxPort) : (keyedUp t).reader = t.reader := by
  unfold keyedUp
  split <;> rfl

theorem advanceCadence_on {s : CadenceSettings} {g : CadenceGen} (h : g.phase = .on) :
    advanceCadence s g =
      { g with count := g.count - 1, pointer := if s.loopLength ≤ g.pointer + 1 then 0 else g.pointer + 1 } := by
  rw [advanceCadence, h]

theorem advanceCadence_off {s : CadenceSettings} {g : CadenceGen} (h : g.phase = .off) :
    advanceCadence s g = { g with count := g.count - 1 } := by
  rw [advanceCadence, h]

theorem advanceCadence_silent {s : CadenceSettings} {g : CadenceGen} (hon : g.phase ≠ .on) (hoff : g.phase ≠ .off) :
    advanceCadence s g = g := by
  unfold advanceCadence
  split
  · exact absurd ‹_› hon
  · exact absurd ‹_› hoff
  · rfl
  · rfl

/-! ### The item of the frame's work -/

theorem runTask_ring_due {s : State} (h : s.hwi.ringDue = true) :
    runTask s .ring = { catchUp s with
      live := ringWork s.cfg s.hwi.received (catchUp s).live
      hwi := { s.hwi with ringDue := false } } := by
  show finishRing s = _
  rw [finishRing, if_pos h]
  simp only [catchUp_cfg, catchUp_hwi]

theorem runTask_ring_done {s : State} (h : s.hwi.ringDue = false) : runTask s .ring = s := by
  show finishRing s = _
  rw [finishRing, h]
  rfl

/-- Settles O53: the ring work as its appends make it of the served live state. -/
theorem frameServesThenAppendsThenAdvances : Obligations.FrameServesThenAppendsThenAdvances := by
  refine ⟨fun c l received hok => ?ringWork, fun s => runTask_ring_due, fun s => runTask_ring_done⟩
  have happended := appendedLive_appended c received l
  obtain ⟨hgen, hrest⟩ := ringWork_rest c received l
  intro t alert
  have halert : alert = alertSample c l received := congrArg stage (alertTerms_eq c l received).symm
  refine ⟨fun q => ?rings, fun p => ?ports, fun h => hgen.trans (advanceCadence_on h),
    fun h => hgen.trans (advanceCadence_off h), fun hon hoff => hgen.trans (advanceCadence_silent hon hoff), hrest⟩
  case rings =>
    intro ring made
    have hmade : madeSample c received (alertSample c l received) l q = made := by
      rw [← halert]
      exact madeSample_eq ..
    refine ⟨fun hidle => ?_, fun hactive => ?_⟩
    · rw [show t.rings = _ from ringWork_rings c received l,
        happended.kept q (.inr ((writerActive_servedLive c l q).trans hidle)), servedLive_rings]
    · have hserved := (writerActive_servedLive c l q).trans hactive
      have hring : look t.rings q = pushSample ring made.1 := by
        rw [show t.rings = _ from ringWork_rings c received l, happended.appended q (mem_allPatches q) hserved,
          madeSample_servedLive, hmade, servedLive_rings]
      rw [hring]
      refine ⟨rfl, pushSample_read_head _ (hok q), fun n hn => pushSample_read_ne _ (hok q) hn, fun hclip => ?_⟩
      refine (stands_ringWork (happended.mixclip q (mem_allPatches q) hserved ?_)).1
      rw [madeSample_servedLive, hmade]
      exact hclip
  case ports =>
    intro x sends
    have hstate : (look t.tx p).state = (keyedUp x).state := ringWork_state c received l p
    have hsample : (look t.tx p).sample = (served c l p (keyedUp x)).sample := ringWork_sample c received l p
    have hhangDue : (look t.tx p).hangDue = (served c l p (keyedUp x)).hangDue := ringWork_hangDue c received l p
    refine ⟨fun hnot => ⟨?_, ?_⟩, fun hsends => hstate.trans (keyedUp_of_sends hsends), fun r hsends hr => ?_⟩
    · rw [hstate, keyedUp_of_not_sends hnot]
    · rw [hsample, keyedUp_of_not_sends hnot, served_of_not_onAir fun h => hnot (.inl h)]
    · intro ring gain out
      have hair := keyedUp_of_sends hsends
      have hreader := (keyedUp_reader x).trans hr
      have hout : takenSample c l p r = out := by
        rw [takenSample, outputGain_eq]
        rfl
      refine ⟨fun hwaits => ?_, fun hhead hend => ?_⟩
      · rw [hsample, hhangDue, served_waiting hair hreader hwaits]
        simp
      · rw [hsample, hhangDue, served_taking hair hreader hhead hend, hout]
        refine ⟨rfl, rfl, fun hclip => (stands_clip received ?_).1⟩
        rw [clips_taking hair hreader hhead hend, hout]
        exact hclip

end Sys2Proof.FrameRingWork

/-! SUPPORT. The end of an alert beside a pending switch: the statement on CANCEL ALERT and the alert timer. -/

namespace Sys2Proof.AlertCounterexample

open Sys2Proof.Machine Sys2Proof.Safety Sys2Proof.Claims Sys2Proof.Patches Sys2Proof.PlanLaws
  Sys2Proof.Counterexamples Sys2Proof.PortCounterexamples

set_option maxRecDepth 100000

/-! ### The state -/

/-- The record of P0: C0 has TALK, RP1 has TALK and LISTEN at a higher rank. -/
def alertRecord : PatchRec := recordOf true [memberOf 16 false true 1, memberOf 1 true true 2]

/-- P0 has the same record in both banks; the records of P1 differ, and its ACTIVE one is not valid. -/
def bankedPlan : Settings :=
  ((Settings.powerOn.setRecord 0 0 alertRecord).setRecord 1 0 alertRecord).setRecord 1 1 (recordOf true [])

/-- RP1 is a HALF port, whose COR is ignored while it is keyed. -/
def alertPlan : Settings :=
  { bankedPlan with ports := put bankedPlan.ports 1 { PortRec.powerOn 1 with duplex := .half } }

/-- P0 is under alert, and C0 and RP1 claim there. RP1 reads the ring of P1, to which it is not entitled any more. A
switch that involves P1 alone is pending; the expiry of its grace timer is due and goes before the idle test. -/
def alertedLive : Live :=
  let l := (talkingIn 0 { mode := .single, floor := [], restriction := none, source := .alert } [1, 16]
    State.reset.live).setOvr 0
      { OverrideState.empty with save2 := some (Context.default .single), timer := .untilCancelled }
  { ((l.setTx 1 (strandedOn 1)).setFreezing 1 true) with
    switch := { SwitchCtl.fresh with state := .pending, involved := [1], grace := some 0, graceFirst := true } }

/-- The order cancels the alert on P0. -/
abbrev cancelling : State := ordered 0x43 [1] alertPlan alertedLive

/-! ### Its laws -/

theorem cancelling_settled : (catchUp cancelling).live = alertedLive := by decide

theorem lawful_bankedPlan : Lawful bankedPlan :=
  ((lawful_single (not_repeatsPort (by decide)) (by decide)).setRecord (not_repeatsPort (by decide))
    (recordInRange_of_all (by decide)) fun _ => by decide).setRecord (not_repeatsPort (by decide))
      (recordInRange_of_all (by decide)) fun _ => by decide

theorem portsInRange_alertPlan : ∀ p : Port, portInRange p (look alertPlan.ports p) = true := by decide

theorem lawful_alertPlan : Lawful alertPlan := by
  obtain ⟨hmembers, -, hrest⟩ := lawful_bankedPlan.2
  exact ⟨lawful_bankedPlan.1, hmembers, portsInRange_alertPlan, hrest⟩

theorem switchLaw_alerted : SwitchLaw alertedLive := by unfold SwitchLaw; decide

theorem guestPremises_alerted : GuestPremises alertPlan alertedLive := by
  refine ⟨lawful_alertPlan.1, lawful_alertPlan.2, ?floors, ?grants, switchLaw_alerted, ?pending, ?overrides, ?claims⟩
  case floors => unfold FloorLaw; decide
  case grants => unfold GrantLaw; decide
  case pending => unfold PendingLaw; decide
  case overrides => unfold OverrideLaw; decide
  case claims => unfold ClaimLaw; decide

theorem following_alerted : Following alertPlan alertedLive := by decide

/-! ### What the order leaves -/

/-- RP1, unkeyed as P1 is cut, has keyed in P0 as its listener and released its claim there. -/
theorem cancelling_releases : (liveAfter (.cancelAlert [1]) cancelling).all (fun l =>
    decide (claimantsOf l 0 = [16]) && decide (claimantsOf alertedLive 0 = [1, 16])) = true := by decide

/-- Refutes O41: CANCEL ALERT ends with the idle test of a pending switch that does not involve the patch, the grace
timer's expiry goes first, and the switch forced there unkeys a stranded reader of the invalid patch it cuts; it keys
at once in the patch whose alert has ended, and as its COR is ignored from then on its claim there is released. -/
theorem not_cancelAndTimerEndAlerts : ¬ Obligations.CancelAndTimerEndAlerts := by
  rintro ⟨hcancel, -⟩
  obtain ⟨l, hans, hended, -⟩ := hcancel 1 cancelling (by rw [cancelling_settled]; exact switchLaw_alerted) rfl
  rw [cancelling_settled] at hended
  obtain ⟨-, -, -, -, -, -, -, hclaims, -⟩ := hended 0 (by decide) (by decide)
  have hkept := hclaims guestPremises_alerted following_alerted
  have hreleases := cancelling_releases
  have hafter : liveAfter (.cancelAlert [1]) cancelling = some l := liveAfter_of_next hans
  rw [hafter] at hreleases
  simp only [Option.all_some, Bool.and_eq_true, decide_eq_true_eq] at hreleases
  obtain ⟨hleft, hbefore⟩ := hreleases
  rw [hleft, hbefore] at hkept
  exact absurd hkept (by decide)

end Sys2Proof.AlertCounterexample
